-- ==== Sys2Proof/Word.lean ====
section
/-! DEFINITION. The widths the source fixes (00_scope R7) and the two byte constants of R8. -/

namespace Sys2Proof

/-- A register or command byte, and an I2C or SPI data unit: 8 bits (00_scope R7). -/
abbrev Byte := BitVec 8

/-- The 16-bit word of SPI_SR16 (00_scope R7). -/
abbrev Half := BitVec 16

/-- A command word and a host register: 32 bits (10_state R22, 30_encoding R90). -/
abbrev Word := BitVec 32

/-- READ_BIT = 0x80 (00_scope R8). -/
def readBit : Byte := 0x80

/-- N_DUMMY = 2 (00_scope R8). -/
def nDummy : Nat := 2

end Sys2Proof
end

