-- ==== Sys2Proof/Config.lean ====
section
/-! DEFINITION. The parameters of 00_scope R9 and the free values of the model. An `opaque` constant has no body:
nothing can be proved of its value, so a claim about it holds for every value. -/

namespace Sys2Proof

/-- The two engine instances (10_state R20). -/
inductive EngineId where
  | i2ce
  | spie
deriving DecidableEq, Repr, Inhabited

/-- The agents that take steps (00_scope R10). The environment takes none: it answers polls and reads. -/
inductive Agent where
  | host
  | sequencer (e : EngineId)
deriving DecidableEq, Repr, Inhabited

/-- The wait sites 1 .. 17 of 60_exceptions R222: one constructor each. -/
inductive Site where
  | s1 | s2 | s3 | s4 | s5 | s6 | s7 | s8 | s9
  | s10 | s11 | s12 | s13 | s14 | s15 | s16 | s17
deriving DecidableEq, Repr, Inhabited

/-- SPI16_BYTE_ORDER: which byte of a 16-bit exchange is frame 1 (42_spi R181). -/
inductive SpiByteOrder where
  | lowFirst
  | highFirst
deriving DecidableEq, Repr, Inhabited

/-- The opaque clock-source selector of I2C_CLKSEL (10_state R49): a name, not a word. -/
abbrev ClockSource := Nat

namespace Config

/-- TIMEOUT_BUDGET(site) less one, OPEN (00_scope R9). Taken from `Fin (2^32 - 1)` so that the budget itself lies in
1 .. 2^32 - 1 whatever this value is. -/
opaque timeoutBudgetLessOne : Site → Fin 4294967295

/-- TIMEOUT_BUDGET(site), an integer in 1 .. 2^32 - 1 (00_scope R9). -/
def timeoutBudget (site : Site) : BitVec 32 :=
  BitVec.ofNat 32 ((timeoutBudgetLessOne site).val + 1)

/-- I2C_CLKSRC, OPEN (00_scope R9, 10_state R49). -/
opaque i2cClkSrc : ClockSource
/-- I2C_PRESC, OPEN (00_scope R9). -/
opaque i2cPresc : BitVec 4
/-- I2C_SCLL, OPEN (00_scope R9). -/
opaque i2cScll : BitVec 8
/-- I2C_SCLH, OPEN (00_scope R9). -/
opaque i2cSclh : BitVec 8
/-- I2C_SDADEL, OPEN (00_scope R9). Its default 0 is one of the values it may have. -/
opaque i2cSdadel : BitVec 4
/-- I2C_SCLDEL, OPEN (00_scope R9). Its default 0 is one of the values it may have. -/
opaque i2cScldel : BitVec 4
/-- SPI_BR, OPEN (00_scope R9, 42_spi R180). -/
opaque spiBr : BitVec 3
/-- I2CE_BASE and SPIE_BASE, OPEN (00_scope R9, 20_memory R79). DESIGN CHOICE (log 26): a host address is a natural
number; the spec gives addresses no width. -/
opaque base : EngineId → Nat
/-- The base address of each engine's peripheral, OPEN (20_memory R79, 60_exceptions R245). As wide as `base`: log 26. -/
opaque peripheralBase : EngineId → Nat
/-- The CS pin, OPEN (20_memory R79, 60_exceptions R245): a name, held as a number (log 20). -/
opaque csPin : Nat
/-- FRXTH as board bring-up leaves it, the parameter of a reference-bound model (93_implementation_defined U25). -/
opaque spiFrxth : Bool
/-- F_I2CCLK, OPEN, for timing alone (00_scope R9): no step reads it. DESIGN CHOICE (log 25): a natural number of Hz; the
spec gives the frequency no type and no unit. -/
opaque fI2cClk : Nat
/-- F_PCLK, OPEN, for timing alone (00_scope R9): no step reads it. DESIGN CHOICE (log 25): a natural number of Hz. -/
opaque fPclk : Nat

/-- SPI_DUMMY, a parameter (00_scope R9, 42_spi R187, U22). Its default is one of the values it may have. -/
opaque spiDummy : Byte
/-- The default of SPI_DUMMY (00_scope R9). -/
def spiDummyDefault : Byte := 0x00
/-- SPI16_BYTE_ORDER, a parameter (00_scope R9, 42_spi R181, U23). Its default is one of the values it may have. -/
opaque spi16ByteOrder : SpiByteOrder
/-- The default of SPI16_BYTE_ORDER (00_scope R9, 42_spi R181). -/
def spi16ByteOrderDefault : SpiByteOrder := .lowFirst
/-- BUF_SIZE = 256 (00_scope R9, 10_state R20). -/
def bufSize : Nat := 256
/-- NBYTES_MAX = 255 (00_scope R9). PRESUMED: the spec marks it as general knowledge. -/
def nbytesMax : Nat := 255

/-- FREE VALUE. What the environment answers to a poll of engine `e` (00_scope R15): the `k`-th free draw. -/
opaque drawFlag : EngineId → Nat → Bool
/-- FREE VALUE. What a data-register read of engine `e` returns (00_scope R15), and every other value the rules call
a draw or unspecified (10_state R35, 20_memory R71, 60_exceptions R232): the `k`-th free draw. -/
opaque drawValue : EngineId → Nat → BitVec 32
/-- FREE VALUE. What byte `k` of engine `e`'s BUF holds before anything writes it, after the `r`-th time BUF became
unspecified (10_state R30). -/
opaque bufAtReset : EngineId → Nat → Nat → Byte
/-- FREE VALUE. The agent that moves when no turn is fixed (20_memory R80: any interleaving is admitted). -/
opaque schedule : Nat → Agent

end Config
end Sys2Proof
end

