-- ==== Sys2Proof/Syntax.lean ====
section
/-! DEFINITION. The commands: one constructor per row of spec/opcode_table.json, with the operands of 30_encoding R98
at the widths of R92. -/

namespace Sys2Proof

/-- The seven commands of 30_encoding R95. -/
inductive Instr where
  /-- I2C_INIT, format N (41_i2c R140). -/
  | i2cInit
  /-- I2C_READ dev, reg, n, format T (41_i2c R141). -/
  | i2cRead (dev : BitVec 7) (reg : BitVec 8) (n : BitVec 8)
  /-- I2C_WRITE dev, reg, n, format T (41_i2c R142). -/
  | i2cWrite (dev : BitVec 7) (reg : BitVec 8) (n : BitVec 8)
  /-- SPI_INIT, format N (42_spi R190). -/
  | spiInit
  /-- SPI_SR8 byte, format X8 (42_spi R191). -/
  | spiSr8 (data : BitVec 8)
  /-- SPI_SR16 word, format X16 (42_spi R192). -/
  | spiSr16 (data : BitVec 16)
  /-- SPI_BURST reg, n, format B (42_spi R193). -/
  | spiBurst (reg : BitVec 8) (n : BitVec 8)
deriving DecidableEq, Repr, Inhabited

end Sys2Proof
end

