-- ==== Sys2Proof/WellFormed.lean ====
section
/-! DEFINITION. The operand ranges of 30_encoding R93. DEV, REG, DATA8 and DATA16 take every value of their width; only
the counts are bounded. -/

namespace Sys2Proof

/-- Which range of 30_encoding R93 an operand breaks. -/
inductive RangeError where
  /-- A count of 0 (30_encoding R93, 93_implementation_defined U1). -/
  | countZero
  /-- I2C_WRITE with N = 255: N + 1 does not fit NBYTES_MAX (30_encoding R93, U2). -/
  | countAboveNbytesMax
deriving DecidableEq, Repr

/-- The range check of 30_encoding R93: the first range an instruction breaks, or none. -/
def rangeError : Instr → Option RangeError
  | .i2cInit => none
  | .i2cRead _ _ n => if n = 0 then some .countZero else none
  | .i2cWrite _ _ n =>
    if n = 0 then some .countZero
    else if n.toNat + 1 > Config.nbytesMax then some .countAboveNbytesMax
    else none
  | .spiInit => none
  | .spiSr8 _ => none
  | .spiSr16 _ => none
  | .spiBurst _ n => if n = 0 then some .countZero else none

/-- Every operand is in its legal range (30_encoding R93). -/
def Instr.wellFormed (i : Instr) : Bool := (rangeError i).isNone

end Sys2Proof
end

