-- ==== Sys2Proof/Decode.lean ====
section
/-! DEFINITION. Decoding of a command word at an engine (30_encoding R90-R97), total on every word, with rejection by
name in the order of R94, and the encoder of R98. -/

namespace Sys2Proof

/-- Why a CMD write is rejected: the three checks of 30_encoding R94, in their order. -/
inductive Reject where
  /-- Check 1: OP is no opcode of this engine. -/
  | opcode
  /-- Check 2: a field marked Z is not 0. -/
  | reservedBits
  /-- Check 3: an operand is out of its range. -/
  | operandRange (why : RangeError)
deriving DecidableEq, Repr

/-- OP = cmd[3:0] (30_encoding R91). -/
def opField (w : Word) : BitVec 4 := w.extractLsb' 0 4
/-- DEV = cmd[14:8] (30_encoding R92). -/
def devField (w : Word) : BitVec 7 := w.extractLsb' 8 7
/-- REG = cmd[23:16] (30_encoding R92). -/
def regField (w : Word) : BitVec 8 := w.extractLsb' 16 8
/-- N = cmd[31:24] (30_encoding R92). -/
def nField (w : Word) : BitVec 8 := w.extractLsb' 24 8
/-- DATA8 = cmd[23:16] (30_encoding R92). -/
def data8Field (w : Word) : BitVec 8 := w.extractLsb' 16 8
/-- DATA16 = cmd[31:16] (30_encoding R92). -/
def data16Field (w : Word) : BitVec 16 := w.extractLsb' 16 16

/-- One row of 30_encoding R97: the bits that must be as the format says (OP and the Z fields), and their value. -/
structure OpcodeRow where
  mask : Word
  pattern : Word
deriving DecidableEq, Repr

/-- The opcode row and the operand assembly for OP at an engine, or none: OP is no opcode of this engine
(30_encoding R95, R97). -/
def opcodeRow (e : EngineId) (op : BitVec 4) : Option (OpcodeRow × (Word → Instr)) :=
  match e with
  | .i2ce =>
    if op = 0x1#4 then some (⟨0xFFFFFFFF#32, 0x00000001#32⟩, fun _ => .i2cInit)
    else if op = 0x2#4 then
      some (⟨0x000080FF#32, 0x00000002#32⟩, fun w => .i2cRead (devField w) (regField w) (nField w))
    else if op = 0x3#4 then
      some (⟨0x000080FF#32, 0x00000003#32⟩, fun w => .i2cWrite (devField w) (regField w) (nField w))
    else none
  | .spie =>
    if op = 0x9#4 then some (⟨0xFFFFFFFF#32, 0x00000009#32⟩, fun _ => .spiInit)
    else if op = 0xA#4 then some (⟨0xFF00FFFF#32, 0x0000000A#32⟩, fun w => .spiSr8 (data8Field w))
    else if op = 0xB#4 then some (⟨0x0000FFFF#32, 0x0000000B#32⟩, fun w => .spiSr16 (data16Field w))
    else if op = 0xC#4 then
      some (⟨0x0000FFFF#32, 0x0000000C#32⟩, fun w => .spiBurst (regField w) (nField w))
    else none

/-- The command a word stands for at an engine, or the first check of 30_encoding R94 that fails. -/
def decode (e : EngineId) (w : Word) : Except Reject Instr :=
  match opcodeRow e (opField w) with
  | none => .error .opcode
  | some (row, build) =>
    if w &&& row.mask = row.pattern then
      match rangeError (build w) with
      | some why => .error (.operandRange why)
      | none => .ok (build w)
    else .error .reservedBits

/-- The engine whose opcode an instruction carries (30_encoding R95). -/
def Instr.engine : Instr → EngineId
  | .i2cInit | .i2cRead _ _ _ | .i2cWrite _ _ _ => .i2ce
  | .spiInit | .spiSr8 _ | .spiSr16 _ | .spiBurst _ _ => .spie

/-- The opcode of an instruction (30_encoding R95). -/
def Instr.opcode : Instr → BitVec 4
  | .i2cInit => 0x1
  | .i2cRead _ _ _ => 0x2
  | .i2cWrite _ _ _ => 0x3
  | .spiInit => 0x9
  | .spiSr8 _ => 0xA
  | .spiSr16 _ => 0xB
  | .spiBurst _ _ => 0xC

/-- The transaction commands of 40_sequencer R110, case 3: all but the two INIT commands. -/
def Instr.isTransaction : Instr → Bool
  | .i2cInit | .spiInit => false
  | .i2cRead _ _ _ | .i2cWrite _ _ _ | .spiSr8 _ | .spiSr16 _ | .spiBurst _ _ => true

/-- The command word of an instruction, by the encoding column of 30_encoding R98. -/
def encode : Instr → Word
  | .i2cInit => 0x00000001
  | .i2cRead dev reg n =>
    (n.setWidth 32 <<< 24) ||| (reg.setWidth 32 <<< 16) ||| (dev.setWidth 32 <<< 8) ||| 0x2
  | .i2cWrite dev reg n =>
    (n.setWidth 32 <<< 24) ||| (reg.setWidth 32 <<< 16) ||| (dev.setWidth 32 <<< 8) ||| 0x3
  | .spiInit => 0x00000009
  | .spiSr8 data => (data.setWidth 32 <<< 16) ||| 0xA
  | .spiSr16 data => (data.setWidth 32 <<< 16) ||| 0xB
  | .spiBurst reg n => (n.setWidth 32 <<< 24) ||| (reg.setWidth 32 <<< 16) ||| 0xC

/-- The engine that an opcode belongs to by OP[3] (30_encoding R95). -/
def engineOfWord (w : Word) : EngineId :=
  if w.getLsbD 3 then .spie else .i2ce

/-- The word whose low `nbits` bits are those of `w` and whose other bits are 0. -/
def tableWord (nbits w : Nat) : Word := BitVec.ofNat 32 (w % 2 ^ nbits)

/-- What the decoder reads from a word of spec/opcode_table.json at the engine its OP[3] names. -/
def decodeTableWord (nbits w : Nat) : Option Instr :=
  match decode (engineOfWord (tableWord nbits w)) (tableWord nbits w) with
  | .ok i => some i
  | .error _ => none

end Sys2Proof
end

