-- ==== Sys2Proof/Machine/State.lean ====
section
/-! DEFINITION. The architectural state of the block (10_state R20-R59), the reasons a step can stop, and the state
right after reset (70_reset R250). Plain data throughout. -/

namespace Sys2Proof.Machine

/-- STATUS.PHASE (10_state R28). Codes 4 .. 7 are never produced, so they have no name here. -/
inductive Phase where
  | idle
  | addressOrCommand
  | data
  | completion
deriving DecidableEq, Repr, Inhabited

/-- The six outcomes of 60_exceptions R220. Codes 6 and 7 are never produced. -/
inductive OutcomeCode where
  | success
  | addressPhaseTimeout
  | dataPhaseTimeout
  | stopPhaseTimeout
  | transmitTimeout
  | receiveTimeout
deriving DecidableEq, Repr, Inhabited

/-- mpc: IDLE or a label of a micro-program of 41_i2c or 42_spi (10_state R37). `rdFail`, `wrFail`, `xFail` and `yFail`
are the rows labelled FAIL of R141, R142, R191 and R192. -/
inductive Label where
  | idle
  | in0 | in1 | in2 | in3 | in4
  | rd0 | rd1 | rd2 | rd3 | rd4 | rd5 | rd6 | rd7 | rd8 | rd9 | rd10 | rdFail
  | wr0 | wr1 | wr2 | wr3 | wr4 | wr5 | wr6 | wr7 | wrFail
  | si0 | si1 | si2 | si3 | si4
  | x0 | x1 | x2 | x3 | x4 | xFail
  | y0 | y1 | y2 | y3 | y4 | yFail
  | b0 | b1 | b2 | b3 | b4 | b5 | b6 | b7 | b8 | b9 | b10 | b11 | b12 | b13 | b14 | b15 | b16 | b17 | b18
  | bf0 | bf1
deriving DecidableEq, Repr, Inhabited

/-- The I2C status flags that I2CE polls (10_state R44). -/
inductive I2cFlag where
  | txis | tc | rxne | stopf
deriving DecidableEq, Repr, Inhabited

/-- The SPI status flags that SPIE polls (10_state R51). -/
inductive SpiFlag where
  | txe | rxne
deriving DecidableEq, Repr, Inhabited

/-- The register-interface and CS events of 10_state R40, each with the value the environment returned for it (R41). -/
inductive Event where
  | i2cClkSel (src : ClockSource)
  | i2cPe (b : Bool)
  | i2cTiming (presc scldel sdadel : BitVec 4) (sclh scll : BitVec 8)
  | i2cCr2 (sadd : BitVec 10) (rdWrn : Bool) (nbytes : BitVec 8) (autoend start : Bool)
  | i2cStop
  | i2cTx (b : Byte)
  | i2cRx (v : Byte)
  | i2cPoll (f : I2cFlag) (v : Bool)
  | i2cClrStopf
  | spiSpe (b : Bool)
  | spiCfg (br : BitVec 3)
  | spiTx8 (b : Byte)
  | spiTx16 (w : Half)
  | spiRx8 (v : Byte)
  | spiRx16 (v : Half)
  | spiPoll (f : SpiFlag) (v : Bool)
  | csHigh
  | csLow
deriving DecidableEq, Repr, Inhabited

/-- The CS level (10_state R56): Unknown is a level of the spec, to be treated as either value. -/
inductive CsLevel where
  | high | low | unknown
deriving DecidableEq, Repr, Inhabited

/-- The host-fault kinds of 60_exceptions R230-R234. -/
inductive HostFaultKind where
  | cmdWhileBusy
  | notInitialized
  | bufWhileBusy
  | csContention
  | badAccess
deriving DecidableEq, Repr, Inhabited

/-- The sticky fault set of 10_state R39: which kinds are recorded. -/
structure FaultSet where
  cmdWhileBusy : Bool
  notInitialized : Bool
  bufWhileBusy : Bool
  csContention : Bool
  badAccess : Bool
deriving DecidableEq, Repr, Inhabited

/-- STATUS by its fields (10_state R23). The 32-bit word the host reads is `Status.word`. -/
structure Status where
  busy : Bool
  valid : Bool
  rej : Bool
  init : Bool
  phase : Phase
  csdrv : Bool
deriving DecidableEq, Repr, Inhabited

/-- RESULT by its fields (10_state R31). FAILSITE 0 is `none`. The 32-bit word the host reads is `Result.word`. -/
structure Result where
  outcome : OutcomeCode
  failsite : Option Site
  residual : BitVec 8
  rdata : BitVec 16
deriving DecidableEq, Repr, Inhabited

/-- The latched operands L.op, L.dev, L.reg, L.n, L.data (10_state R36). -/
structure Latches where
  op : BitVec 4
  dev : BitVec 7
  reg : BitVec 8
  n : BitVec 8
  data : BitVec 16
deriving DecidableEq, Repr, Inhabited

/-- The pending failure record F.oc, F.site, F.res (10_state R36). F.site 0 is `none`. -/
structure FailRecord where
  oc : OutcomeCode
  site : Option Site
  res : BitVec 8
deriving DecidableEq, Repr, Inhabited

/-- BUF: (index, byte) cells, indices strictly rising and below 256. An unlisted index is a byte that nothing has written
since BUF last became unspecified (10_state R30); what it reads as is `Engine.bufByte`. -/
abbrev Memory := List Host.Cell

/-- The environment of one engine (00_scope R15): the poll answers and data values it has ready, in order, and how many
free draws have been taken once a list is empty. The MODEL's own fields (log 4). -/
structure Environment where
  flags : List Bool
  values : List (BitVec 32)
  count : Nat
deriving DecidableEq, Repr, Inhabited

/-- One engine instance (10_state R20): its host-visible registers, its hidden state (R36), its fault set (R39) and its
trace (R41). `bufEpoch`, `env` and `contested` are the MODEL's own (logs 7, 4, 12). -/
structure Engine where
  cmd : BitVec 32
  status : Status
  result : Result
  buf : Memory
  bufEpoch : Nat
  mpc : Label
  budget : BitVec 32
  idx : BitVec 9
  latch : Latches
  fail : FailRecord
  tmp : BitVec 16
  faults : FaultSet
  trace : List Event
  env : Environment
  /-- BUF values that did not land when the host wrote BUF while BUSY = 1 (60_exceptions R232). -/
  contested : List Host.Cell
deriving DecidableEq, Repr, Inhabited

/-- The I2C CR1 bits other than PE (10_state R45): the engine writes them only as 0. -/
structure I2cCr1Other where
  /-- Bits 7:1. -/
  interruptEnables : BitVec 7
  dnf : BitVec 4
  anfoff : Bool
  /-- Bits 15:14. -/
  dmaEnables : BitVec 2
  sbc : Bool
  nostretch : Bool
  wupen : Bool
  gcen : Bool
  /-- Bits 23:20. -/
  smbus : BitVec 4
deriving DecidableEq, Repr, Inhabited

/-- The I2C status flags (10_state R44, R45 ISR). The environment writes them (R57); a flag is held as the engine's last
poll saw it, which does not bind the next poll (log 31). -/
structure I2cStatus where
  txe : Bool
  txis : Bool
  rxne : Bool
  addr : Bool
  nackf : Bool
  stopf : Bool
  tc : Bool
  tcr : Bool
  berr : Bool
  arlo : Bool
  ovr : Bool
  busy : Bool
deriving DecidableEq, Repr, Inhabited

/-- The I2C peripheral's fields (10_state R42, R43, R45): what the engine last wrote, the byte last received, and the
status flags. -/
structure I2cPeripheral where
  clksel : ClockSource
  pe : Bool
  presc : BitVec 4
  scldel : BitVec 4
  sdadel : BitVec 4
  sclh : BitVec 8
  scll : BitVec 8
  sadd : BitVec 10
  rdWrn : Bool
  nbytes : BitVec 8
  autoend : Bool
  start : Bool
  stop : Bool
  /-- The transfer-control fields the source does not name: written only as 0 (10_state R43, R45). -/
  add10 : Bool
  head10r : Bool
  reload : Bool
  nackReq : Bool
  pecByte : Bool
  txdata : BitVec 8
  rxdata : BitVec 8
  cr1Other : I2cCr1Other
  isr : I2cStatus
deriving DecidableEq, Repr, Inhabited

/-- FRAME: the SPI frame size (10_state R50). -/
inductive FrameSize where
  | bits8 | bits16
deriving DecidableEq, Repr, Inhabited

/-- The SPI CR1 bits 15:10 (10_state R52). -/
structure SpiCr1Other where
  rxonly : Bool
  crcl : Bool
  crcnext : Bool
  crcen : Bool
  bidioe : Bool
  bidimode : Bool
deriving DecidableEq, Repr, Inhabited

/-- The SPI CR2 bits other than DS (10_state R52). No event writes them. -/
structure SpiCr2Other where
  rxdmaen : Bool
  txdmaen : Bool
  ssoe : Bool
  nssp : Bool
  frf : Bool
  errie : Bool
  rxneie : Bool
  txeie : Bool
  frxth : Bool
deriving DecidableEq, Repr, Inhabited

/-- The SPI status flags (10_state R51, R52 SR), held as `I2cStatus` holds the I2C ones (log 31). -/
structure SpiStatus where
  rxne : Bool
  txe : Bool
  crcerr : Bool
  modf : Bool
  ovr : Bool
  bsy : Bool
  fre : Bool
  frlvl : BitVec 2
  ftlvl : BitVec 2
deriving DecidableEq, Repr, Inhabited

/-- The SPI peripheral's fields (10_state R50, R52, R54): `drTx` is the value last written to DR, `drWide` whether that
write was 16 bits wide, `drRx` the value last read from DR. -/
structure SpiPeripheral where
  mstr : Bool
  ssm : Bool
  ssi : Bool
  br : BitVec 3
  cpol : Bool
  cpha : Bool
  lsbfirst : Bool
  frame : FrameSize
  spe : Bool
  drTx : BitVec 16
  drWide : Bool
  drRx : BitVec 16
  cr1Other : SpiCr1Other
  cr2Other : SpiCr2Other
  sr : SpiStatus
deriving DecidableEq, Repr, Inhabited

/-- The width of a host access: 1, 2 or 4 bytes (20_memory R70). -/
inductive AccessSize where
  | one | two | four
deriving DecidableEq, Repr, Inhabited

/-- What the outside world does to the block. Offsets are those of a register block of 0x200 bytes (20_memory R70). -/
inductive HostOp where
  /-- `MemRead(E_BASE + off, size)` (20_memory R70). -/
  | read (e : EngineId) (off : BitVec 9) (size : AccessSize)
  /-- `MemWrite(E_BASE + off, size, v)` (20_memory R70). -/
  | write (e : EngineId) (off : BitVec 9) (size : AccessSize) (v : BitVec 32)
  /-- `WAIT E`: a host spin on STATUS.BUSY (30_encoding R99). -/
  | wait (e : EngineId)
  /-- The host drives the CS line through the external GPIO driver (42_spi R174); `high` is the level. -/
  | driveCs (high : Bool)
  /-- Reset (70_reset R250). -/
  | reset
deriving DecidableEq, Repr, Inhabited

/-- The whole machine: two engines, their peripherals' fields, the CS line, and the inputs that wait to be taken
(`hostOps`, `turns`, `tick`; the MODEL's own, logs 3 and 5) with what the host's last read returned (log 6). -/
structure State where
  i2c : Engine
  spi : Engine
  i2cPer : I2cPeripheral
  spiPer : SpiPeripheral
  cs : CsLevel
  hostOps : List HostOp
  hostRead : BitVec 32
  turns : List Agent
  tick : Nat
deriving DecidableEq, Repr, Inhabited

/-- Why a step of the model stops. No run from reset reaches either (log 17); no rule of the spec ends a run, and the
spec's host faults are recorded in the engine's fault set. -/
inductive Fault where
  /-- Raised by a command's meaning when mpc is no label of its micro-program, and by a sequencer turn when BUSY = 1 and
  L.op is no command of the engine. Safe: the model stops where 10_state R37 gives the machine no such state. -/
  | strayLabel (e : EngineId)
  /-- Raised by a step that would read or write BUF[idx] with idx above 255 (00_scope R14: never). Safe: there is no
  such byte. -/
  | bufIndex (e : EngineId)
deriving DecidableEq, Repr

/-- Why the model gives an instruction no meaning. -/
inductive Refusal where
  /-- Raised only by an arm of `exec` whose instruction has no meaning yet. Safe: the model stops. No arm raises it. -/
  | notModelled (mnemonic : String)
deriving DecidableEq, Repr

/-- How every step and every meaning answers. -/
abbrev Answer := Host.Outcome State Fault Refusal

end Sys2Proof.Machine

namespace Sys2Proof.Config

/-- FREE VALUE. What engine `e` holds once a CmdWhileBusy is recorded against it (60_exceptions R230): the `k`-th draw. -/
opaque unspecifiedEngine : EngineId → Nat → Machine.Engine
/-- FREE VALUE. What the I2C peripheral's fields hold once a CmdWhileBusy is recorded against I2CE (R230). -/
opaque unspecifiedI2cPeripheral : Nat → Machine.I2cPeripheral
/-- FREE VALUE. What the SPI peripheral's fields hold once a CmdWhileBusy is recorded against SPIE (R230). -/
opaque unspecifiedSpiPeripheral : Nat → Machine.SpiPeripheral

end Sys2Proof.Config

namespace Sys2Proof.Machine

/-- The empty fault set (10_state R39). -/
def FaultSet.empty : FaultSet := ⟨false, false, false, false, false⟩

/-- STATUS = 0 (10_state R59). -/
def Status.reset : Status := ⟨false, false, false, false, .idle, false⟩

/-- RESULT = 0 (10_state R59). -/
def Result.reset : Result := ⟨.success, none, 0, 0⟩

/-- An engine right after reset (10_state R59). budget, idx, the latches, the failure record and tmp are unspecified in
the spec and never read before written; the values here are the model's (DESIGN CHOICE, log 8). -/
def Engine.reset : Engine where
  cmd := 0
  status := Status.reset
  result := Result.reset
  buf := []
  bufEpoch := 0
  mpc := .idle
  budget := 0
  idx := 0
  latch := ⟨0, 0, 0, 0, 0⟩
  fail := ⟨.success, none, 0⟩
  tmp := 0
  faults := FaultSet.empty
  trace := []
  env := ⟨[], [], 0⟩
  contested := []

/-- Every CR1 bit but PE at 0 (10_state R45, R46). -/
def I2cCr1Other.zero : I2cCr1Other := ⟨0, 0, false, 0, false, false, false, false, 0⟩

/-- ISR = 0x00000001: TXE alone (10_state R46; PRESUMED, log 9). -/
def I2cStatus.reset : I2cStatus :=
  ⟨true, false, false, false, false, false, false, false, false, false, false, false⟩

/-- The I2C peripheral's fields at reset: the reference values of 10_state R46 (PRESUMED, log 9). -/
def I2cPeripheral.reset : I2cPeripheral where
  clksel := 0
  pe := false
  presc := 0
  scldel := 0
  sdadel := 0
  sclh := 0
  scll := 0
  sadd := 0
  rdWrn := false
  nbytes := 0
  autoend := false
  start := false
  stop := false
  add10 := false
  head10r := false
  reload := false
  nackReq := false
  pecByte := false
  txdata := 0
  rxdata := 0
  cr1Other := I2cCr1Other.zero
  isr := I2cStatus.reset

/-- CR1 bits 15:10 at 0 (10_state R52, R53). -/
def SpiCr1Other.zero : SpiCr1Other := ⟨false, false, false, false, false, false⟩

/-- CR2 at 0x0700 but for DS (10_state R53; PRESUMED, log 9). -/
def SpiCr2Other.reset : SpiCr2Other := ⟨false, false, false, false, false, false, false, false, false⟩

/-- SR = 0x0002: TXE alone (10_state R53; PRESUMED, log 9). -/
def SpiStatus.reset : SpiStatus := ⟨false, true, false, false, false, false, false, 0, 0⟩

/-- The SPI peripheral's fields at reset: the reference values of 10_state R53 (PRESUMED, log 9). -/
def SpiPeripheral.reset : SpiPeripheral where
  mstr := false
  ssm := false
  ssi := false
  br := 0
  cpol := false
  cpha := false
  lsbfirst := false
  frame := .bits8
  spe := false
  drTx := 0
  drWide := false
  drRx := 0
  cr1Other := SpiCr1Other.zero
  cr2Other := SpiCr2Other.reset
  sr := SpiStatus.reset

/-- The machine right after reset (70_reset R250, 10_state R59): both engines idle and not initialised, the CS level
Unknown, no host access pending and no turn fixed. -/
def State.reset : State where
  i2c := Engine.reset
  spi := Engine.reset
  i2cPer := I2cPeripheral.reset
  spiPer := SpiPeripheral.reset
  cs := .unknown
  hostOps := []
  hostRead := 0
  turns := []
  tick := 0

end Sys2Proof.Machine
end

