-- ==== Sys2Proof/Machine/Flags.lean ====
section
/-! DEFINITION. The numeric codes and the words of STATUS and RESULT, the fault set, and the wait sites with their
labels, flags and outcomes (10_state R23-R39, 60_exceptions R220-R222). -/

namespace Sys2Proof.Machine

/-- The value of STATUS.PHASE (10_state R28). -/
def Phase.code : Phase → BitVec 3
  | .idle => 0
  | .addressOrCommand => 1
  | .data => 2
  | .completion => 3

/-- The code of an outcome (60_exceptions R220). -/
def OutcomeCode.code : OutcomeCode → BitVec 3
  | .success => 0
  | .addressPhaseTimeout => 1
  | .dataPhaseTimeout => 2
  | .stopPhaseTimeout => 3
  | .transmitTimeout => 4
  | .receiveTimeout => 5

/-- The number of a site (60_exceptions R222). -/
def siteCode : Site → BitVec 5
  | .s1 => 1 | .s2 => 2 | .s3 => 3 | .s4 => 4 | .s5 => 5 | .s6 => 6 | .s7 => 7 | .s8 => 8 | .s9 => 9
  | .s10 => 10 | .s11 => 11 | .s12 => 12 | .s13 => 13 | .s14 => 14 | .s15 => 15 | .s16 => 16 | .s17 => 17

/-- FAILSITE and F.site as numbers: 0 means "no failure" (10_state R33, 60_exceptions R222). -/
def failsiteCode (f : Option Site) : BitVec 5 :=
  match f with
  | none => 0
  | some site => siteCode site

/-- The outcome of a wait that runs out, by its site (60_exceptions R220, R222, 41_i2c R130, R131, 42_spi R170, R171): a
NACK shows only as one of these. -/
def siteOutcome : Site → OutcomeCode
  | .s1 | .s2 | .s5 => .addressPhaseTimeout
  | .s3 | .s6 => .dataPhaseTimeout
  | .s4 | .s7 => .stopPhaseTimeout
  | .s8 | .s10 | .s12 | .s14 | .s16 => .transmitTimeout
  | .s9 | .s11 | .s13 | .s15 | .s17 => .receiveTimeout

/-- The site of the AWAIT at a label, if the label is one (60_exceptions R222). -/
def awaitSite : Label → Option Site
  | .rd1 => some .s1
  | .rd3 => some .s2
  | .rd5 => some .s3
  | .rd8 => some .s4
  | .wr1 => some .s5
  | .wr3 => some .s6
  | .wr5 => some .s7
  | .x0 | .y0 => some .s8
  | .x2 | .y2 => some .s9
  | .b1 => some .s10
  | .b3 => some .s11
  | .b5 => some .s12
  | .b7 => some .s13
  | .b9 => some .s14
  | .b11 => some .s15
  | .b13 => some .s16
  | .b15 => some .s17
  | _ => none

/-- A flag as the low bit of a 32-bit word. -/
def flagWord (b : Bool) : BitVec 32 := if b then 1#32 else 0#32

/-- STATUS as the host reads it (10_state R23): bits 31:8 read as 0. -/
def Status.word (s : Status) : BitVec 32 :=
  flagWord s.busy ||| (flagWord s.valid <<< 1) ||| (flagWord s.rej <<< 2) ||| (flagWord s.init <<< 3)
    ||| (s.phase.code.setWidth 32 <<< 4) ||| (flagWord s.csdrv <<< 7)

/-- RESULT as the host reads it (10_state R31). -/
def Result.word (r : Result) : BitVec 32 :=
  r.outcome.code.setWidth 32 ||| ((failsiteCode r.failsite).setWidth 32 <<< 3)
    ||| (r.residual.setWidth 32 <<< 8) ||| (r.rdata.setWidth 32 <<< 16)

/-- Whether a kind is recorded (10_state R39). -/
def FaultSet.has (f : FaultSet) : HostFaultKind → Bool
  | .cmdWhileBusy => f.cmdWhileBusy
  | .notInitialized => f.notInitialized
  | .bufWhileBusy => f.bufWhileBusy
  | .csContention => f.csContention
  | .badAccess => f.badAccess

/-- `raise HostFault(kind)`: the kind is added and never removed (10_state R39). -/
def FaultSet.record (f : FaultSet) : HostFaultKind → FaultSet
  | .cmdWhileBusy => { f with cmdWhileBusy := true }
  | .notInitialized => { f with notInitialized := true }
  | .bufWhileBusy => { f with bufWhileBusy := true }
  | .csContention => { f with csContention := true }
  | .badAccess => { f with badAccess := true }

end Sys2Proof.Machine
end

