-- ==== Sys2Proof/Machine/Operands.lean ====
section
/-! DEFINITION. Operand latches (30_encoding R93) and the values the micro-programs derive from them. -/

namespace Sys2Proof.Machine

/-- The latches after accepting `i` (30_encoding R93, 40_sequencer R110): L.op always, the others as the format gives;
a latch that the format does not give keeps its value (log 29). -/
def latchOperands (i : Instr) (l : Latches) : Latches :=
  match i with
  | .i2cInit => { l with op := 0x1 }
  | .i2cRead dev reg n => { l with op := 0x2, dev := dev, reg := reg, n := n }
  | .i2cWrite dev reg n => { l with op := 0x3, dev := dev, reg := reg, n := n }
  | .spiInit => { l with op := 0x9 }
  | .spiSr8 data => { l with op := 0xA, data := data.setWidth 16 }
  | .spiSr16 data => { l with op := 0xB, data := data }
  | .spiBurst reg n => { l with op := 0xC, reg := reg, n := n }

/-- The command an engine is running, read back from its latches (40_sequencer R111), if L.op is one of the engine's
opcodes (30_encoding R95). -/
def runningCommand (e : EngineId) (l : Latches) : Option Instr :=
  match e with
  | .i2ce =>
    if l.op = 0x1#4 then some .i2cInit
    else if l.op = 0x2#4 then some (.i2cRead l.dev l.reg l.n)
    else if l.op = 0x3#4 then some (.i2cWrite l.dev l.reg l.n)
    else none
  | .spie =>
    if l.op = 0x9#4 then some .spiInit
    else if l.op = 0xA#4 then some (.spiSr8 (l.data.setWidth 8))
    else if l.op = 0xB#4 then some (.spiSr16 l.data)
    else if l.op = 0xC#4 then some (.spiBurst l.reg l.n)
    else none

/-- SADD = zext_10(L.dev << 1) (10_state R43, 41_i2c R136). -/
def saddOf (dev : BitVec 7) : BitVec 10 := dev.setWidth 10 <<< 1

/-- The transfer length N + 1 of I2C_WRITE, computed in 9 bits (00_scope R14, 10_state R43). -/
def writeLength (n : BitVec 8) : BitVec 8 := (n.setWidth 9 + 1#9).setWidth 8

/-- The burst address byte L.reg | 0x80 (42_spi R186). -/
def burstAddress (reg : BitVec 8) : Byte := reg ||| readBit

/-- The residual N - idx (00_scope R14, 10_state R34). -/
def residualOf (n : BitVec 8) (idx : BitVec 9) : BitVec 8 := n - idx.setWidth 8

/-- The loop test idx < L.n (41_i2c R141, R142, 42_spi R193). -/
def morePayload (n : BitVec 8) (idx : BitVec 9) : Bool := idx < n.setWidth 9

/-- L.data[7:0], the byte SPI_SR8 sends (42_spi R191). -/
def lowData (data : BitVec 16) : Byte := data.setWidth 8

end Sys2Proof.Machine
end

