-- ==== Sys2Proof/Machine/Ops.lean ====
section
/-! DEFINITION. The operations every meaning is written over: BUF, the environment's draws, events, the micro-operations
of 40_sequencer (EMIT, AWAIT, RX, FINISH), acceptance and rejection, the failure entry and its return, the loss of
specified behaviour after a CmdWhileBusy, and reset. -/

namespace Sys2Proof.Machine

/-! ### BUF -/

/-- The byte stored at an index, if one is listed. -/
def Memory.read? : Memory → Nat → Option Byte
  | [], _ => none
  | (a, b) :: m, k => if k = a then some b else Memory.read? m k

/-- Store a byte at an index, keeping indices strictly rising. -/
def Memory.write : Memory → Nat → Byte → Memory
  | [], k, v => [(k, v)]
  | (a, b) :: m, k, v =>
    if k < a then (k, v) :: (a, b) :: m
    else if k = a then (k, v) :: m
    else (a, b) :: Memory.write m k v

/-- The canonical form: indices strictly rising and below BUF_SIZE. -/
def Memory.wf : Memory → Bool
  | [] => true
  | (a, _) :: m => decide (a < Config.bufSize) && m.all (fun c => decide (a < c.1)) && Memory.wf m

/-- BUF[k] of engine `e` (10_state R30): the byte last written, or the free byte it holds until one is. -/
def Engine.bufByte (e : EngineId) (x : Engine) (k : Nat) : Byte :=
  (x.buf.read? k).getD (Config.bufAtReset e x.bufEpoch k)

/-- `BUF[k] <- v`. -/
def Engine.setBuf (x : Engine) (k : Nat) (v : Byte) : Engine := { x with buf := x.buf.write k v }

/-! ### Access to the engines -/

/-- The state of engine `e` (10_state R20). -/
def State.engine (s : State) : EngineId → Engine
  | .i2ce => s.i2c
  | .spie => s.spi

/-- The machine with engine `e` replaced. -/
def State.setEngine (s : State) (e : EngineId) (x : Engine) : State :=
  match e with
  | .i2ce => { s with i2c := x }
  | .spie => { s with spi := x }

/-- The machine with engine `e` changed by `f`. -/
def State.onEngine (s : State) (e : EngineId) (f : Engine → Engine) : State :=
  s.setEngine e (f (s.engine e))

/-! ### Draws (00_scope R15) -/

/-- One poll answer: the next one the environment has ready, or a free one. -/
def Environment.drawFlag (e : EngineId) (v : Environment) : Bool × Environment :=
  match v.flags with
  | b :: rest => (b, { v with flags := rest })
  | [] => (Config.drawFlag e v.count, { v with count := v.count + 1 })

/-- One data value: the next one the environment has ready, or a free one. -/
def Environment.drawValue (e : EngineId) (v : Environment) : BitVec 32 × Environment :=
  match v.values with
  | w :: rest => (w, { v with values := rest })
  | [] => (Config.drawValue e v.count, { v with count := v.count + 1 })

/-! ### Small changes of one engine -/

/-- `STATUS.PHASE <- p` (40_sequencer R111, column "phase set"). -/
def Engine.setPhase (p : Phase) (x : Engine) : Engine := { x with status := { x.status with phase := p } }

/-- `STATUS.CSDRV <- b` (10_state R29). -/
def Engine.setCsdrv (b : Bool) (x : Engine) : Engine := { x with status := { x.status with csdrv := b } }

/-- `idx <- v`. -/
def Engine.setIdx (v : BitVec 9) (x : Engine) : Engine := { x with idx := v }

/-- `mpc <- l`, with the budget loaded if `l` is an AWAIT (10_state R38, 40_sequencer R111). -/
def Engine.goto (l : Label) (x : Engine) : Engine :=
  match awaitSite l with
  | some site => { x with mpc := l, budget := Config.timeoutBudget site }
  | none => { x with mpc := l }

/-- Append an event to the trace (10_state R41). -/
def Engine.append (ev : Event) (x : Engine) : Engine := { x with trace := x.trace ++ [ev] }

/-- `raise HostFault(kind)` against the engine (10_state R39). -/
def Engine.raise (k : HostFaultKind) (x : Engine) : Engine := { x with faults := x.faults.record k }

/-- `STATUS.PHASE <- p` of engine `e`. -/
def State.setPhase (s : State) (e : EngineId) (p : Phase) : State := s.onEngine e (Engine.setPhase p)

/-! ### Events (10_state R40, R42, R43, R50, R54, R56) -/

/-- ISR with the flag a poll saw (10_state R44, R57, log 31). -/
def I2cStatus.observe (r : I2cStatus) (f : I2cFlag) (v : Bool) : I2cStatus :=
  match f with
  | .txis => { r with txis := v }
  | .tc => { r with tc := v }
  | .rxne => { r with rxne := v }
  | .stopf => { r with stopf := v }

/-- SR with the flag a poll saw (10_state R51, R57, log 31). -/
def SpiStatus.observe (r : SpiStatus) (f : SpiFlag) (v : Bool) : SpiStatus :=
  match f with
  | .txe => { r with txe := v }
  | .rxne => { r with rxne := v }

/-- What an event does to the peripheral's fields and to the CS line. `i2cCr2` writes the whole transfer-control
register, so every field it does not name becomes 0; `i2cStop` sets STOP alone. `spiCfg` sets MSTR, SSM and SSI (42_spi
R175). CR1's other bits exist only in the reference binding, where `i2cPe` and `spiCfg` write them as 0 (R45, R52). A poll
leaves in the status flag what it saw, and `i2cClrStopf` clears STOPF (log 31). -/
def State.applyEvent (ev : Event) (s : State) : State :=
  match ev with
  | .i2cClkSel src => { s with i2cPer := { s.i2cPer with clksel := src } }
  | .i2cPe b => { s with i2cPer := { s.i2cPer with pe := b, cr1Other := I2cCr1Other.zero } }
  | .i2cTiming presc scldel sdadel sclh scll =>
    { s with i2cPer :=
      { s.i2cPer with presc := presc, scldel := scldel, sdadel := sdadel, sclh := sclh, scll := scll } }
  | .i2cCr2 sadd rdWrn nbytes autoend start =>
    { s with i2cPer :=
      { s.i2cPer with
        sadd := sadd, rdWrn := rdWrn, nbytes := nbytes, autoend := autoend, start := start, stop := false,
        add10 := false, head10r := false, reload := false, nackReq := false, pecByte := false } }
  | .i2cStop => { s with i2cPer := { s.i2cPer with stop := true } }
  | .i2cTx b => { s with i2cPer := { s.i2cPer with txdata := b } }
  | .i2cRx v => { s with i2cPer := { s.i2cPer with rxdata := v } }
  | .i2cPoll f v => { s with i2cPer := { s.i2cPer with isr := s.i2cPer.isr.observe f v } }
  | .i2cClrStopf => { s with i2cPer := { s.i2cPer with isr := { s.i2cPer.isr with stopf := false } } }
  | .spiSpe b => { s with spiPer := { s.spiPer with spe := b } }
  | .spiCfg br =>
    { s with spiPer :=
      { s.spiPer with
        mstr := true, ssm := true, ssi := true, br := br, cpol := false, cpha := false, lsbfirst := false,
        frame := .bits8, cr1Other := SpiCr1Other.zero } }
  | .spiTx8 b => { s with spiPer := { s.spiPer with drTx := b.setWidth 16, drWide := false } }
  | .spiTx16 w => { s with spiPer := { s.spiPer with drTx := w, drWide := true } }
  | .spiRx8 v => { s with spiPer := { s.spiPer with drRx := v.setWidth 16 } }
  | .spiRx16 v => { s with spiPer := { s.spiPer with drRx := v } }
  | .spiPoll f v => { s with spiPer := { s.spiPer with sr := s.spiPer.sr.observe f v } }
  | .csHigh => { s with cs := .high }
  | .csLow => { s with cs := .low }

/-- `Emit(ev)` by engine `e`: the event joins the trace and acts on the peripheral or the CS line (00_scope R12). -/
def State.emit (s : State) (e : EngineId) (ev : Event) : State :=
  (s.onEngine e (Engine.append ev)).applyEvent ev

/-! ### The failure entry (60_exceptions R238) -/

/-- What a failing wait saves and where it goes: F.oc, F.site, F.res, and mpc <- FAIL (40_sequencer R112). -/
def Engine.failEntry (oc : OutcomeCode) (site : Site) (res : BitVec 8) (failLabel : Label) (x : Engine) : Engine :=
  ({ x with fail := ⟨oc, some site, res⟩ }).goto failLabel

/-- A poll that returned 0 (40_sequencer R112): the budget counts down, never below 0 (00_scope R14, log 16); at 0 the
wait fails, otherwise mpc stays and the next step polls again. -/
def Engine.missedPoll (oc : OutcomeCode) (site : Site) (res : BitVec 8) (failLabel : Label) (x : Engine) : Engine :=
  if x.budget.toNat ≤ 1 then
    ({ x with budget := 0 }).failEntry oc site res failLabel
  else { x with budget := x.budget - 1#32 }

/-! ### Micro-operations (40_sequencer R112-R116) -/

/-- EMIT(ev) with success label `next` (40_sequencer R114). -/
def emitStep (e : EngineId) (ev : Event) (next : Label) (s : State) : State :=
  (s.emit e ev).onEngine e (Engine.goto next)

/-- AWAIT(f, oc, site, res) with success label `next` and failure label `failLabel` (40_sequencer R112). `poll v` is the
poll event of flag f that returned v. The flag is taken before the budget is tested. -/
def awaitStep (e : EngineId) (poll : Bool → Event) (oc : OutcomeCode) (site : Site) (res : BitVec 8)
    (next failLabel : Label) (s : State) : State :=
  let drawn := (s.engine e).env.drawFlag e
  let polled := (s.onEngine e fun x => { x with env := drawn.2 }).emit e (poll drawn.1)
  if drawn.1 then polled.onEngine e (Engine.goto next)
  else polled.onEngine e (Engine.missedPoll oc site res failLabel)

/-- The RX part common to all three kinds: draw a value, put it in tmp and emit the read event (40_sequencer R115).
`cut` narrows the draw to the width of the read. -/
def rxValue (e : EngineId) (cut : BitVec 32 → BitVec 16) (ev : BitVec 16 → Event) (s : State) : State :=
  let drawn := (s.engine e).env.drawValue e
  (s.onEngine e fun x => { x with env := drawn.2, tmp := cut drawn.1 }).emit e (ev (cut drawn.1))

/-- `tmp <- RxByte()`: an 8-bit read, the event carrying the byte (40_sequencer R115). -/
def rxByte (e : EngineId) (ev : Byte → Event) (s : State) : State :=
  rxValue e (fun w => (w.setWidth 8).setWidth 16) (fun t => ev (t.setWidth 8)) s

/-- `tmp <- RxWord()`: a 16-bit read emitting `SPI_RX16` (40_sequencer R115). -/
def rxWord (e : EngineId) (s : State) : State :=
  rxValue e (fun w => w.setWidth 16) Event.spiRx16 s

/-- RX(8) -> tmp, discarded or kept until FINISH, with success label `next` (40_sequencer R115). -/
def rxDiscardStep (e : EngineId) (ev : Byte → Event) (next : Label) (s : State) : State :=
  (rxByte e ev s).onEngine e (Engine.goto next)

/-- RX(16) -> tmp, kept until FINISH, with success label `next` (40_sequencer R115, 42_spi R192). -/
def rxWordStep (e : EngineId) (next : Label) (s : State) : State :=
  (rxWord e s).onEngine e (Engine.goto next)

/-- `idx <- idx + 1`, then to `again` while idx < L.n and to `done` after (41_i2c R141, R142, 42_spi R193). -/
def Engine.advance (again done : Label) (x : Engine) : Engine :=
  let idx' := x.idx + 1#9
  (x.setIdx idx').goto (if morePayload x.latch.n idx' then again else done)

/-- RX(8) -> BUF[idx], `idx <- idx + 1` and the loop test (40_sequencer R115). -/
def rxStoreStep (e : EngineId) (ev : Byte → Event) (again done : Label) (s : State) : Answer :=
  if (s.engine e).idx.toNat < Config.bufSize then
    .next ((rxByte e ev s).onEngine e fun x =>
      (x.setBuf x.idx.toNat (x.tmp.setWidth 8)).advance again done)
  else .fault (.bufIndex e)

/-- The byte that EMIT `I2C_TX(BUF[idx])` sends, with the engine after it is fetched (41_i2c R142). Where the host wrote
the byte while BUSY = 1, the engine may send the value that landed or one that did not, and a draw picks
(60_exceptions R232, log 12). -/
def payloadByte (e : EngineId) (x : Engine) : Byte × Engine :=
  let held := x.bufByte e x.idx.toNat
  match (x.contested.filter fun c => c.1 == x.idx.toNat).map Prod.snd with
  | [] => (held, x)
  | other :: more =>
    let drawn := x.env.drawValue e
    let choices := held :: other :: more
    (choices.getD (drawn.1.toNat % choices.length) held, { x with env := drawn.2 })

/-- EMIT `I2C_TX(BUF[idx])`, `idx <- idx + 1` and the loop test (41_i2c R142, WR4). -/
def txPayloadStep (e : EngineId) (again done : Label) (s : State) : Answer :=
  if (s.engine e).idx.toNat < Config.bufSize then
    let fetched := payloadByte e (s.engine e)
    .next (((s.setEngine e fetched.2).emit e (.i2cTx fetched.1)).onEngine e (Engine.advance again done))
  else .fault (.bufIndex e)

/-- The end of every command (40_sequencer R116): RESULT written, VALID <- 1, BUSY <- 0, mpc <- IDLE, no event. -/
def Engine.finish (r : Result) (x : Engine) : Engine :=
  { x with result := r, status := { x.status with valid := true, busy := false }, mpc := .idle }

/-- FINISH(Success) of a command that returns no value: RDATA is unchanged (40_sequencer R116, 10_state R35). -/
def finishSuccess (e : EngineId) (s : State) : State :=
  s.onEngine e fun x => x.finish ⟨.success, none, 0, x.result.rdata⟩

/-- FINISH(Success) of an INIT command, which also sets STATUS.INIT (40_sequencer R116, 10_state R27). -/
def finishInit (e : EngineId) (s : State) : State :=
  (finishSuccess e s).onEngine e fun x => { x with status := { x.status with init := true } }

/-- FINISH(Success) of SPI_SR8 or SPI_SR16, which returns RDATA (40_sequencer R116, 10_state R35). -/
def finishExchange (e : EngineId) (rdata : BitVec 16) (s : State) : State :=
  s.onEngine e fun x => x.finish ⟨.success, none, 0, rdata⟩

/-- FINISH(F) of a command other than SPI_SR8 and SPI_SR16: RDATA is unchanged (40_sequencer R116). -/
def finishFailed (e : EngineId) (s : State) : State :=
  s.onEngine e fun x => x.finish ⟨x.fail.oc, x.fail.site, x.fail.res, x.result.rdata⟩

/-- FINISH(F) of SPI_SR8 or SPI_SR16: RDATA is a draw (40_sequencer R116, 10_state R35). -/
def finishFailedExchange (e : EngineId) (s : State) : State :=
  let drawn := (s.engine e).env.drawValue e
  s.onEngine e fun x =>
    ({ x with env := drawn.2 }).finish ⟨x.fail.oc, x.fail.site, x.fail.res, drawn.1.setWidth 16⟩

/-! ### Acceptance and rejection (40_sequencer R110, 30_encoding R94) -/

/-- A rejected word: REJ <- 1 and nothing else (30_encoding R94). -/
def rejectCommand (e : EngineId) (s : State) : State :=
  s.onEngine e fun x => { x with status := { x.status with rej := true } }

/-- An engine accepting `i` (40_sequencer R110, case 3): CMD and the latches loaded, REJ <- 0, BUSY <- 1, mpc at the first
label of the micro-program, and NotInitialized for a transaction while INIT = 0. -/
def Engine.accept (i : Instr) (first : Label) (x : Engine) : Engine :=
  ({ x with
      cmd := encode i
      latch := latchOperands i x.latch
      status := { x.status with rej := false, busy := true }
      contested := []
      faults := if i.isTransaction && !x.status.init then x.faults.record .notInitialized else x.faults }).goto first

/-- A command issued to its idle engine: accepted, or rejected where an operand is out of range (30_encoding R94). -/
def issueCommand (i : Instr) (first : Label) (s : State) : State :=
  if i.wellFormed then s.onEngine i.engine (Engine.accept i first)
  else rejectCommand i.engine s

/-! ### Leaving the specified behaviour (60_exceptions R230, R235) -/

/-- Engine `e`, its peripheral and (for SPIE) the CS line become unspecified; the fault set stays (10_state R39). BUF
becomes unspecified as at reset: nothing listed, fresh free bytes. -/
def State.unspecify (e : EngineId) (s : State) : State :=
  let x := s.engine e
  let x' : Engine :=
    { Config.unspecifiedEngine e x.env.count with
      faults := x.faults
      buf := []
      bufEpoch := x.bufEpoch + 1
      env := { x.env with count := x.env.count + 1 }
      contested := [] }
  match e with
  | .i2ce => { s with i2c := x', i2cPer := Config.unspecifiedI2cPeripheral x.env.count }
  | .spie => { s with spi := x', spiPer := Config.unspecifiedSpiPeripheral x.env.count, cs := .unknown }

/-! ### Reset (70_reset R250) -/

/-- An engine at reset within a run: as `Engine.reset`, with fresh free BUF bytes; the fault set is not cleared within a
run (10_state R39), and the environment is not the block's to reset. -/
def Engine.resetNow (x : Engine) : Engine :=
  { Engine.reset with bufEpoch := x.bufEpoch + 1, faults := x.faults, env := x.env }

/-- Reset of the block: both engines idle, no event, the peripherals untouched. A CS line that a running SPIE command
left driven keeps the level of the last event; otherwise the level is Unknown (70_reset R250, log 14). -/
def State.resetBlock (s : State) : State :=
  { s with
    i2c := s.i2c.resetNow
    spi := s.spi.resetNow
    cs := if s.spi.status.busy then s.cs else .unknown }

end Sys2Proof.Machine
end

