-- ==== Sys2Proof/Machine/I2c.lean ====
section
/-! DEFINITION. The meanings of I2C_INIT, I2C_READ and I2C_WRITE (41_i2c R140-R142). Each is one step of its command on
I2CE: acceptance at IDLE (40_sequencer R110), and at every label of the micro-program the row of that label. -/

namespace Sys2Proof.Machine

/-- I2C_INIT (41_i2c R140). -/
def execI2cInit (s : State) : Answer :=
  match s.i2c.mpc with
  | .idle => .next (issueCommand .i2cInit .in0 s)
  | .in0 => .next (emitStep .i2ce (.i2cClkSel Config.i2cClkSrc) .in1 (s.setPhase .i2ce .completion))
  | .in1 => .next (emitStep .i2ce (.i2cPe false) .in2 s)
  | .in2 =>
    .next (emitStep .i2ce
      (.i2cTiming Config.i2cPresc Config.i2cScldel Config.i2cSdadel Config.i2cSclh Config.i2cScll) .in3 s)
  | .in3 => .next (emitStep .i2ce (.i2cPe true) .in4 s)
  | .in4 => .next (finishInit .i2ce s)
  | _ => .fault (.strayLabel .i2ce)

/-- I2C_READ dev, reg, n (41_i2c R141). The micro-operations read the latched operands (40_sequencer R114). -/
def execI2cRead (dev : BitVec 7) (reg n : BitVec 8) (s : State) : Answer :=
  let x := s.i2c
  match x.mpc with
  | .idle => .next (issueCommand (.i2cRead dev reg n) .rd0 s)
  | .rd0 =>
    .next (emitStep .i2ce (.i2cCr2 (saddOf x.latch.dev) false 1 false true) .rd1
      (s.setPhase .i2ce .addressOrCommand))
  | .rd1 => .next (awaitStep .i2ce (.i2cPoll .txis) .addressPhaseTimeout .s1 0 .rd2 .rdFail s)
  | .rd2 => .next (emitStep .i2ce (.i2cTx x.latch.reg) .rd3 s)
  | .rd3 => .next (awaitStep .i2ce (.i2cPoll .tc) .addressPhaseTimeout .s2 0 .rd4 .rdFail s)
  | .rd4 =>
    .next ((emitStep .i2ce (.i2cCr2 (saddOf x.latch.dev) true x.latch.n false true) .rd5
      (s.setPhase .i2ce .data)).onEngine .i2ce (Engine.setIdx 0))
  | .rd5 =>
    .next (awaitStep .i2ce (.i2cPoll .rxne) .dataPhaseTimeout .s3 (residualOf x.latch.n x.idx) .rd6 .rdFail s)
  | .rd6 => rxStoreStep .i2ce Event.i2cRx .rd5 .rd7 s
  | .rd7 => .next (emitStep .i2ce .i2cStop .rd8 (s.setPhase .i2ce .completion))
  | .rd8 => .next (awaitStep .i2ce (.i2cPoll .stopf) .stopPhaseTimeout .s4 0 .rd9 .rdFail s)
  | .rd9 => .next (emitStep .i2ce .i2cClrStopf .rd10 s)
  | .rd10 => .next (finishSuccess .i2ce s)
  | .rdFail => .next (finishFailed .i2ce s)
  | _ => .fault (.strayLabel .i2ce)

/-- I2C_WRITE dev, reg, n (41_i2c R142). -/
def execI2cWrite (dev : BitVec 7) (reg n : BitVec 8) (s : State) : Answer :=
  let x := s.i2c
  match x.mpc with
  | .idle => .next (issueCommand (.i2cWrite dev reg n) .wr0 s)
  | .wr0 =>
    .next (emitStep .i2ce (.i2cCr2 (saddOf x.latch.dev) false (writeLength x.latch.n) true true) .wr1
      (s.setPhase .i2ce .addressOrCommand))
  | .wr1 => .next (awaitStep .i2ce (.i2cPoll .txis) .addressPhaseTimeout .s5 0 .wr2 .wrFail s)
  | .wr2 => .next ((emitStep .i2ce (.i2cTx x.latch.reg) .wr3 s).onEngine .i2ce (Engine.setIdx 0))
  | .wr3 =>
    .next (awaitStep .i2ce (.i2cPoll .txis) .dataPhaseTimeout .s6 (residualOf x.latch.n x.idx) .wr4 .wrFail
      (s.setPhase .i2ce .data))
  | .wr4 => txPayloadStep .i2ce .wr3 .wr5 s
  | .wr5 =>
    .next (awaitStep .i2ce (.i2cPoll .stopf) .stopPhaseTimeout .s7 0 .wr6 .wrFail (s.setPhase .i2ce .completion))
  | .wr6 => .next (emitStep .i2ce .i2cClrStopf .wr7 s)
  | .wr7 => .next (finishSuccess .i2ce s)
  | .wrFail => .next (finishFailed .i2ce s)
  | _ => .fault (.strayLabel .i2ce)

end Sys2Proof.Machine
end

