-- ==== Sys2Proof/Machine/Spi.lean ====
section
/-! DEFINITION. The meanings of SPI_INIT, SPI_SR8, SPI_SR16 and SPI_BURST (42_spi R190-R193). Each is one step of its
command on SPIE: acceptance at IDLE (40_sequencer R110), and at every label of the micro-program the row of that label. -/

namespace Sys2Proof.Machine

/-- SPI_INIT (42_spi R190). -/
def execSpiInit (s : State) : Answer :=
  match s.spi.mpc with
  | .idle => .next (issueCommand .spiInit .si0 s)
  | .si0 => .next (emitStep .spie (.spiSpe false) .si1 (s.setPhase .spie .completion))
  | .si1 => .next (emitStep .spie (.spiCfg Config.spiBr) .si2 s)
  | .si2 => .next ((emitStep .spie .csHigh .si3 s).onEngine .spie (Engine.setCsdrv false))
  | .si3 => .next (emitStep .spie (.spiSpe true) .si4 s)
  | .si4 => .next (finishInit .spie s)
  | _ => .fault (.strayLabel .spie)

/-- SPI_SR8 byte (42_spi R191). The micro-operations read the latched operand (40_sequencer R114). -/
def execSpiSr8 (data : BitVec 8) (s : State) : Answer :=
  let x := s.spi
  match x.mpc with
  | .idle => .next (issueCommand (.spiSr8 data) .x0 s)
  | .x0 =>
    .next (awaitStep .spie (.spiPoll .txe) .transmitTimeout .s8 0 .x1 .xFail (s.setPhase .spie .addressOrCommand))
  | .x1 => .next (emitStep .spie (.spiTx8 (lowData x.latch.data)) .x2 s)
  | .x2 => .next (awaitStep .spie (.spiPoll .rxne) .receiveTimeout .s9 0 .x3 .xFail (s.setPhase .spie .data))
  | .x3 => .next (rxDiscardStep .spie Event.spiRx8 .x4 s)
  | .x4 => .next (finishExchange .spie ((x.tmp.setWidth 8).setWidth 16) (s.setPhase .spie .completion))
  | .xFail => .next (finishFailedExchange .spie s)
  | _ => .fault (.strayLabel .spie)

/-- SPI_SR16 word (42_spi R192). -/
def execSpiSr16 (data : BitVec 16) (s : State) : Answer :=
  let x := s.spi
  match x.mpc with
  | .idle => .next (issueCommand (.spiSr16 data) .y0 s)
  | .y0 =>
    .next (awaitStep .spie (.spiPoll .txe) .transmitTimeout .s8 0 .y1 .yFail (s.setPhase .spie .addressOrCommand))
  | .y1 => .next (emitStep .spie (.spiTx16 x.latch.data) .y2 s)
  | .y2 => .next (awaitStep .spie (.spiPoll .rxne) .receiveTimeout .s9 0 .y3 .yFail (s.setPhase .spie .data))
  | .y3 => .next (rxWordStep .spie .y4 s)
  | .y4 => .next (finishExchange .spie x.tmp (s.setPhase .spie .completion))
  | .yFail => .next (finishFailedExchange .spie s)
  | _ => .fault (.strayLabel .spie)

/-- SPI_BURST reg, n (42_spi R193). -/
def execSpiBurst (reg n : BitVec 8) (s : State) : Answer :=
  let x := s.spi
  match x.mpc with
  | .idle => .next (issueCommand (.spiBurst reg n) .b0 s)
  | .b0 =>
    .next ((emitStep .spie .csLow .b1 (s.setPhase .spie .addressOrCommand)).onEngine .spie (Engine.setCsdrv true))
  | .b1 => .next (awaitStep .spie (.spiPoll .txe) .transmitTimeout .s10 0 .b2 .bf0 s)
  | .b2 => .next (emitStep .spie (.spiTx8 (burstAddress x.latch.reg)) .b3 s)
  | .b3 => .next (awaitStep .spie (.spiPoll .rxne) .receiveTimeout .s11 0 .b4 .bf0 s)
  | .b4 => .next (rxDiscardStep .spie Event.spiRx8 .b5 s)
  | .b5 => .next (awaitStep .spie (.spiPoll .txe) .transmitTimeout .s12 0 .b6 .bf0 s)
  | .b6 => .next (emitStep .spie (.spiTx8 Config.spiDummy) .b7 s)
  | .b7 => .next (awaitStep .spie (.spiPoll .rxne) .receiveTimeout .s13 0 .b8 .bf0 s)
  | .b8 => .next (rxDiscardStep .spie Event.spiRx8 .b9 s)
  | .b9 => .next (awaitStep .spie (.spiPoll .txe) .transmitTimeout .s14 0 .b10 .bf0 s)
  | .b10 => .next (emitStep .spie (.spiTx8 Config.spiDummy) .b11 s)
  | .b11 => .next (awaitStep .spie (.spiPoll .rxne) .receiveTimeout .s15 0 .b12 .bf0 s)
  | .b12 => .next ((rxDiscardStep .spie Event.spiRx8 .b13 s).onEngine .spie (Engine.setIdx 0))
  | .b13 =>
    .next (awaitStep .spie (.spiPoll .txe) .transmitTimeout .s16 (residualOf x.latch.n x.idx) .b14 .bf0
      (s.setPhase .spie .data))
  | .b14 => .next (emitStep .spie (.spiTx8 Config.spiDummy) .b15 s)
  | .b15 =>
    .next (awaitStep .spie (.spiPoll .rxne) .receiveTimeout .s17 (residualOf x.latch.n x.idx) .b16 .bf0 s)
  | .b16 => rxStoreStep .spie Event.spiRx8 .b13 .b17 s
  | .b17 =>
    .next ((emitStep .spie .csHigh .b18 (s.setPhase .spie .completion)).onEngine .spie (Engine.setCsdrv false))
  | .b18 => .next (finishSuccess .spie s)
  | .bf0 => .next ((emitStep .spie .csHigh .bf1 s).onEngine .spie (Engine.setCsdrv false))
  | .bf1 => .next (finishFailed .spie s)
  | _ => .fault (.strayLabel .spie)

end Sys2Proof.Machine
end

