-- ==== Sys2Proof/Machine/Dispatch.lean ====
section
/-! DEFINITION. One arm per command of 30_encoding R95: the step the command takes (40_sequencer R110, R111). -/

namespace Sys2Proof.Machine

def exec (i : Instr) (s : State) : Host.Outcome State Fault Refusal :=
  match i with
  | .i2cInit => Sys2Proof.Machine.execI2cInit s
  | .i2cRead dev reg n => Sys2Proof.Machine.execI2cRead dev reg n s
  | .i2cWrite dev reg n => Sys2Proof.Machine.execI2cWrite dev reg n s
  | .spiInit => Sys2Proof.Machine.execSpiInit s
  | .spiSr8 data => Sys2Proof.Machine.execSpiSr8 data s
  | .spiSr16 data => Sys2Proof.Machine.execSpiSr16 data s
  | .spiBurst reg n => Sys2Proof.Machine.execSpiBurst reg n s

end Sys2Proof.Machine
end

