-- ==== Sys2Proof/Machine/HostAccess.lean ====
section
/-! DEFINITION. The turns of the agents (00_scope R10): the host's accesses to a register block (20_memory R70-R72), its
drive of the CS line (42_spi R174), its pseudo-operations (30_encoding R99), and a sequencer's turn (40_sequencer R111). -/

namespace Sys2Proof.Machine

/-- The parts of a register block (20_memory R70). -/
inductive Region where
  | cmd | status | result
  /-- Offsets 0x00C .. 0x0FF. -/
  | reserved
  /-- Offsets 0x100 .. 0x1FF. -/
  | buf
  /-- An access R71 does not allow: narrow or misaligned at 0x000 .. 0x00B, misaligned in BUF. -/
  | illegal
deriving DecidableEq, Repr

/-- The bytes of an access (20_memory R70). -/
def AccessSize.bytes : AccessSize → Nat
  | .one => 1
  | .two => 2
  | .four => 4

/-- What an access reaches, by its first offset and its size (20_memory R70, R71). -/
def regionOf (off : BitVec 9) (size : AccessSize) : Region :=
  let o := off.toNat
  if o < 0x00C then
    if size = .four ∧ o % 4 = 0 then
      if o = 0x000 then .cmd else if o = 0x004 then .status else .result
    else .illegal
  else if o < 0x100 then .reserved
  else if o % size.bytes = 0 then .buf
  else .illegal

/-- The `j`-th byte of a word, byte 0 being bits 7:0: the host view is little-endian (20_memory R72). -/
def byteOf (v : BitVec 32) (j : Nat) : Byte := v.extractLsb' (8 * j) 8

/-- BUF[k .. k + count - 1] as a word, BUF[k] in bits 7:0 (20_memory R72). -/
def bufWord (e : EngineId) (x : Engine) (k : Nat) : Nat → BitVec 32
  | 0 => 0
  | count + 1 => bufWord e x k count ||| ((x.bufByte e (k + count)).setWidth 32 <<< (8 * count))

/-- `BUF[k + j] <- byte j of v`, for each j below the count (20_memory R72). -/
def storeBytes (k : Nat) (v : BitVec 32) : Nat → Engine → Engine
  | 0, x => x
  | count + 1, x => (storeBytes k v count x).setBuf (k + count) (byteOf v count)

/-- The (index, byte) cells BUF[k .. k + count - 1] hold. -/
def heldCells (e : EngineId) (x : Engine) (k : Nat) : Nat → List Host.Cell
  | 0 => []
  | count + 1 => heldCells e x k count ++ [(k + count, x.bufByte e (k + count))]

/-- The (index, byte) cells a write of `v` at BUF[k] would store. -/
def offeredCells (k : Nat) (v : BitVec 32) : Nat → List Host.Cell
  | 0 => []
  | count + 1 => offeredCells k v count ++ [(k + count, byteOf v count)]

/-- What a host read returns, kept for the host (log 6). -/
def State.returned (s : State) (v : BitVec 32) : State := { s with hostRead := v }

/-- A value cut to the width of an access, zero above it. -/
def AccessSize.cut (size : AccessSize) (v : BitVec 32) : BitVec 32 :=
  match size with
  | .one => (v.setWidth 8).setWidth 32
  | .two => (v.setWidth 16).setWidth 32
  | .four => v

/-- A read that returns an unspecified value (60_exceptions R232, R234): a draw. DESIGN CHOICE (log 6): the draw is as wide
as the access, zero-extended in `hostRead`; the spec says only "an unspecified value" (20_memory R71). -/
def returnDraw (e : EngineId) (size : AccessSize) (s : State) : State :=
  let drawn := (s.engine e).env.drawValue e
  (s.onEngine e fun x => { x with env := drawn.2 }).returned (size.cut drawn.1)

/-- `MemRead(E_BASE + off, size)` (20_memory R70-R72), with the faults of 60_exceptions R236 in their order. -/
def memRead (e : EngineId) (off : BitVec 9) (size : AccessSize) (s : State) : State :=
  let x := s.engine e
  if x.faults.cmdWhileBusy then returnDraw e size (s.unspecify e)
  else
    match regionOf off size with
    | .illegal => returnDraw e size (s.onEngine e (Engine.raise .badAccess))
    | .cmd => s.returned x.cmd
    | .status => s.returned x.status.word
    | .result => s.returned x.result.word
    | .reserved => s.returned 0
    | .buf =>
      if x.status.busy then returnDraw e size (s.onEngine e (Engine.raise .bufWhileBusy))
      else s.returned (bufWord e x (off.toNat - 0x100) size.bytes)

/-- A command write while BUSY = 1 (40_sequencer R110, case 1): CmdWhileBusy is recorded, the word is discarded, and the
engine is unspecified from here on; REJ alone is unaffected by this write (10_state R26, log 10). -/
def commandWhileBusy (e : EngineId) (s : State) : State :=
  ((s.onEngine e (Engine.raise .cmdWhileBusy)).unspecify e).onEngine e fun x =>
    { x with status := { x.status with rej := (s.engine e).status.rej } }

/-- A host write to CMD (40_sequencer R110). Only here does a command word reach the decoder. -/
def writeCmd (e : EngineId) (v : BitVec 32) (s : State) : Answer :=
  if (s.engine e).status.busy then .next (commandWhileBusy e s)
  else
    match decode e v with
    | .error _ => .next (rejectCommand e s)
    | .ok i => exec i s

/-- A host write to BUF while BUSY = 1 (60_exceptions R232): the fault is recorded, a draw says whether the write lands,
and the bytes that did not land stay values a running I2C_WRITE may send (log 12). -/
def writeBufBusy (e : EngineId) (k count : Nat) (v : BitVec 32) (s : State) : State :=
  let drawn := (s.engine e).env.drawFlag e
  s.onEngine e fun x =>
    let x1 := { x.raise .bufWhileBusy with env := drawn.2 }
    if drawn.1 then { storeBytes k v count x1 with contested := x1.contested ++ heldCells e x1 k count }
    else { x1 with contested := x1.contested ++ offeredCells k v count }

/-- `MemWrite(E_BASE + off, size, v)` (20_memory R70-R72), with the faults of 60_exceptions R236 in their order. -/
def memWrite (e : EngineId) (off : BitVec 9) (size : AccessSize) (v : BitVec 32) (s : State) : Answer :=
  let x := s.engine e
  if x.faults.cmdWhileBusy then .next (s.unspecify e)
  else
    match regionOf off size with
    | .illegal => .next (s.onEngine e (Engine.raise .badAccess))
    | .cmd => writeCmd e v s
    | .status => .next s
    | .result => .next s
    | .reserved => .next s
    | .buf =>
      let k := off.toNat - 0x100
      if x.status.busy then .next (writeBufBusy e k size.bytes v s)
      else .next (s.onEngine e (storeBytes k v size.bytes))

/-- The host drives the CS line (42_spi R174): its level outside a burst; inside one the contention fault, the level
Unknown until the next CS event (60_exceptions R233). -/
def driveCs (high : Bool) (s : State) : State :=
  if s.spi.faults.cmdWhileBusy then s.unspecify .spie
  else if s.spi.status.csdrv then
    { s.onEngine .spie (Engine.raise .csContention) with cs := .unknown }
  else { s with cs := if high then .high else .low }

/-- One read of `WAIT E`: STATUS is read, and the wait stays pending while BUSY was 1 (30_encoding R99). -/
def waitOnce (e : EngineId) (s : State) : State :=
  let s' := memRead e 0x004#9 .four s
  if s'.hostRead.getLsbD 0 then { s' with hostOps := .wait e :: s'.hostOps } else s'

/-- One action of the outside world, already taken from the pending list. -/
def hostAction (op : HostOp) (s : State) : Answer :=
  match op with
  | .read e off size => .next (memRead e off size s)
  | .write e off size v => memWrite e off size v s
  | .wait e => .next (waitOnce e s)
  | .driveCs high => .next (driveCs high s)
  | .reset => .next s.resetBlock

/-- The host's turn: its next pending action in host program order (20_memory R80), or nothing if none waits. -/
def hostTurn (s : State) : Answer :=
  match s.hostOps with
  | [] => .next s
  | op :: rest => hostAction op { s with hostOps := rest }

/-- A sequencer's turn (40_sequencer R111): one step of the running command iff BUSY = 1. An engine with a CmdWhileBusy
recorded stays unspecified (60_exceptions R230, R235). -/
def sequencerTurn (e : EngineId) (s : State) : Answer :=
  let x := s.engine e
  if x.faults.cmdWhileBusy then .next (s.unspecify e)
  else if x.status.busy then
    match runningCommand e x.latch with
    | some i => exec i s
    | none => .fault (.strayLabel e)
  else .next s

/-- The turn of an agent (00_scope R10). -/
def agentTurn (a : Agent) (s : State) : Answer :=
  match a with
  | .host => hostTurn s
  | .sequencer e => sequencerTurn e s

/-- The next turn of the one interleaving (20_memory R80): the first fixed turn, or, where none is fixed, the turn of the
agent a free value picks (log 3). -/
def nextTurn (s : State) : Answer :=
  match s.turns with
  | a :: rest => agentTurn a { s with turns := rest }
  | [] => agentTurn (Config.schedule s.tick) { s with tick := s.tick + 1 }

/-- Engine `e` able to take a command at once (40_sequencer R110, case 3): not busy and at IDLE. -/
def readyEngine (x : Engine) : Engine :=
  { x with mpc := .idle, status := { x.status with busy := false } }

/-- The machine in which the very next step is the host's 4-byte write of `w` to CMD of engine `e`, that engine ready to
take it. -/
def State.withCommand (s : State) (e : EngineId) (w : BitVec 32) : State :=
  { s.onEngine e readyEngine with
    hostOps := .write e 0x000#9 .four w :: s.hostOps
    turns := .host :: s.turns }

/-! ### The host's pseudo-operations (30_encoding R99) -/

/-- The host address of an offset of a block (20_memory R70, R79). DESIGN CHOICE (log 26): a natural number, so the sum has
no width and does not wrap. A view: every access names its engine and offset. -/
def hostAddress (e : EngineId) (off : BitVec 9) : Nat := Config.base e + off.toNat

/-- `ISSUE E, <command>`: the word goes to E's CMD, also where the command is the other engine's (and is rejected there). -/
def issueOp (e : EngineId) (i : Instr) : HostOp := .write e 0x000#9 .four (encode i)
/-- `RESULT E -> r`. -/
def resultOp (e : EngineId) : HostOp := .read e 0x008#9 .four
/-- `BUFW E, k, v`. -/
def bufwOp (e : EngineId) (k : BitVec 8) (v : Byte) : HostOp :=
  .write e (0x100#9 + k.setWidth 9) .one (v.setWidth 32)
/-- `BUFR E, k -> v`. -/
def bufrOp (e : EngineId) (k : BitVec 8) : HostOp := .read e (0x100#9 + k.setWidth 9) .one
/-- `CALL E, <command>`. -/
def callOps (e : EngineId) (i : Instr) : List HostOp := [issueOp e i, .wait e, resultOp e]

end Sys2Proof.Machine
end

