-- ==== Sys2Proof/Machine/Step.lean ====
section
/-! DEFINITION. One step of the machine, and the placing of a command word where the next step takes it. -/

namespace Sys2Proof.Machine

/-- One atomic step of one agent (20_memory R78, R80). -/
def step (s : State) : Host.Outcome State Fault Refusal := nextTurn s

/-- `s` with a command word of spec/opcode_table.json written by the host in the very next step, at the engine its OP[3]
names (log 5). -/
def State.withFetchWord (s : State) (nbits w : Nat) : State :=
  s.withCommand (engineOfWord (tableWord nbits w)) (tableWord nbits w)

end Sys2Proof.Machine
end

