-- ==== Sys2Proof/Machine/Wire.lean ====
section
/-! DEFINITION. The wire view of the traces: the SPI frame formatter (42_spi R181-R183, R185), and the order of bits and
bytes on the buses (20_memory R74, R75). Views of the state; no step reads them (log 22). -/

namespace Sys2Proof.Machine

/-- The settings the frame formatter has after SPI_INIT (42_spi R181): 8-bit frames, MSB first, CPOL = 0, CPHA = 0. -/
def formatterSet (p : SpiPeripheral) : Bool :=
  p.frame == .bits8 && !p.lsbfirst && !p.cpol && !p.cpha

/-- One frame on the SPI wire: `Frame(tx, rx)` (42_spi R182). `rx` is `none` while no read of DR has returned it. -/
structure WireFrame where
  tx : Byte
  rx : Option Byte
deriving DecidableEq, Repr

/-- The bytes of a 16-bit DR write in frame order, by SPI16_BYTE_ORDER (42_spi R181). -/
def splitWord (order : SpiByteOrder) (w : Half) : Byte × Byte :=
  let low : Byte := w.setWidth 8
  let high : Byte := w.extractLsb' 8 8
  match order with
  | .lowFirst => (low, high)
  | .highFirst => (high, low)

/-- The 16-bit value of two received bytes, assembled in the same order (42_spi R181). -/
def joinWord (order : SpiByteOrder) (rx1 rx2 : Byte) : Half :=
  match order with
  | .lowFirst => rx2 ++ rx1
  | .highFirst => rx1 ++ rx2

/-- MOSI during one frame: tx[7] first, tx[0] last (42_spi R182). -/
def mosiBits (tx : Byte) : List Bool :=
  [tx.getLsbD 7, tx.getLsbD 6, tx.getLsbD 5, tx.getLsbD 4, tx.getLsbD 3, tx.getLsbD 2, tx.getLsbD 1, tx.getLsbD 0]

/-- The byte sampled from MISO, the first bit being rx[7] (42_spi R182). -/
def misoByte (bits : List Bool) : Byte :=
  bits.foldl (fun acc b => (acc <<< 1) ||| (if b then 1#8 else 0#8)) 0#8

/-- Give the last frame its received byte. -/
def fillLast (rx : Byte) : List WireFrame → List WireFrame
  | [] => []
  | [f] => [{ f with rx := some rx }]
  | f :: fs => f :: fillLast rx fs

/-- Give the last two frames the bytes of a 16-bit read (42_spi R181, R183). -/
def fillLastTwo (rx1 rx2 : Byte) : List WireFrame → List WireFrame
  | [] => []
  | [f] => [{ f with rx := some rx1 }]
  | [f, g] => [{ f with rx := some rx1 }, { g with rx := some rx2 }]
  | f :: fs => f :: fillLastTwo rx1 rx2 fs

/-- The frames after one more event: a DR write starts one frame or two; the DR read that follows returns their rx
(42_spi R181, R183). -/
def framesAfter (order : SpiByteOrder) (frames : List WireFrame) : Event → List WireFrame
  | .spiTx8 b => frames ++ [⟨b, none⟩]
  | .spiTx16 w => frames ++ [⟨(splitWord order w).1, none⟩, ⟨(splitWord order w).2, none⟩]
  | .spiRx8 v => fillLast v frames
  | .spiRx16 v =>
    match order with
    | .lowFirst => fillLastTwo (v.setWidth 8) (v.extractLsb' 8 8) frames
    | .highFirst => fillLastTwo (v.extractLsb' 8 8) (v.setWidth 8) frames
  | _ => frames

/-- The frames on the SPI wire for a trace (42_spi R181, R183). -/
def wireFrames (order : SpiByteOrder) (trace : List Event) : List WireFrame :=
  trace.foldl (framesAfter order) []

/-- The transmitted bytes of a burst, in frame order: address, two dummies, n fillers (42_spi R185, R186, R187). -/
def burstTx (reg n : BitVec 8) : List Byte :=
  burstAddress reg :: (List.replicate nDummy Config.spiDummy ++ List.replicate n.toNat Config.spiDummy)

/-- The divisor of f_SCK = F_PCLK / 2^(SPI_BR + 1) (42_spi R180). PRESUMED: general knowledge in the spec. -/
def sckDivisor (br : BitVec 3) : Nat := 2 ^ (br.toNat + 1)

/-- f_SCK = F_PCLK / 2^(SPI_BR + 1) in Hz (42_spi R180, 70_reset R270). PRESUMED, timing only: no step reads it (log 25). -/
def sckFrequency : Rat := (Config.fPclk : Rat) / (sckDivisor Config.spiBr : Rat)

/-- The SCL period in seconds without the filter and synchronisation delays (70_reset R270). PRESUMED, timing only. -/
def sclPeriod : Rat :=
  (((Config.i2cScll.toNat + 1) + (Config.i2cSclh.toNat + 1)) * (Config.i2cPresc.toNat + 1) : Rat) / (Config.fI2cClk : Rat)

/-- The I2C address byte `{dev[6:0], R/W}` (20_memory R74). PRESUMED: general knowledge in the spec. -/
def i2cAddressByte (dev : BitVec 7) (readDirection : Bool) : Byte := dev ++ (if readDirection then 1#1 else 0#1)

/-- The bits of a byte on the I2C wire, most significant first (20_memory R74). PRESUMED. -/
def i2cBits (b : Byte) : List Bool := mosiBits b

/-- The bytes the engine hands to the I2C wire, in order: the address byte of each transfer-control write with START, and
each byte written to TXDATA (20_memory R74, 10_state R47). PRESUMED: which bytes the peripheral puts on the wire. -/
def i2cMasterBytes : List Event → List Byte
  | [] => []
  | .i2cCr2 sadd rdWrn _ _ true :: rest => i2cAddressByte (sadd.extractLsb' 1 7) rdWrn :: i2cMasterBytes rest
  | .i2cTx b :: rest => b :: i2cMasterBytes rest
  | _ :: rest => i2cMasterBytes rest

end Sys2Proof.Machine
end

