-- ==== Sys2Proof/Machine/Contract.lean ====
section
/-! DEFINITION. The optional reference peripheral contracts of 10_state R48 (I2C) and R55 (SPI), as predicates on traces.
PRESUMED throughout: the spec marks both as general knowledge. NOT adopted by the machine: no step reads them, every draw
stays free (log 21). A claim that wants one names it as a hypothesis. -/

namespace Sys2Proof.Machine

/-- A status flag as a contract knows it: 0; due, when what makes it 1 has begun and, steps being untimed, may or may not be
over; 1. -/
inductive RefFlag where
  | low | due | high
deriving DecidableEq, Repr, Inhabited

/-- A poll of a flag, or none: the contract does not admit the answer. A flag that is 1, or was seen 1, stays 1 until an
event clears it; one that is 0 stays 0; one that is due may be seen either way (log 21). -/
def RefFlag.poll (f : RefFlag) (v : Bool) : Option RefFlag :=
  match f with
  | .low => if v then none else some .low
  | .due => if v then some .high else some .due
  | .high => if v then some .high else none

/-- What makes the flag 1 begins. A flag that is 1 already stays so. -/
def RefFlag.raise (f : RefFlag) : RefFlag :=
  match f with
  | .low => .due
  | .due => .due
  | .high => .high

/-- What was due is over. -/
def RefFlag.settle (f : RefFlag) : RefFlag :=
  match f with
  | .low => .low
  | .due => .high
  | .high => .high

/-- The reference I2C peripheral as R48 describes it: the transfer in progress, whether a NACK or a STOP has ended it, the
flags, and the slave's remaining answers (true: ACK) to the bytes the master sends. A flag changes only where a law of
R48, or the PE law of 70_reset R262, says so: a START clears neither RXNE nor STOPF nor the NACK flag. -/
structure RefI2c where
  rdWrn : Bool
  autoend : Bool
  nbytes : Nat
  moved : Nat
  closed : Bool
  txis : RefFlag
  tc : RefFlag
  rxne : RefFlag
  stopf : RefFlag
  nackf : Bool
  acks : List Bool
deriving DecidableEq, Repr

/-- The reference I2C peripheral before any transfer, with the slave's answers to come. DESIGN CHOICE (log 21): TXIS, TC,
RXNE, STOPF and the NACK flag are 0 here, as PE = 0 leaves them (70_reset R262); R48 gives them no value at the start of a
trace. A claim about another start uses `RefI2c.run` from it. -/
def RefI2c.start (acks : List Bool) : RefI2c :=
  ⟨false, false, 0, 0, false, .low, .low, .low, .low, false, acks⟩

/-- The slave's next answer. DESIGN CHOICE (log 21): a slave with no answer left ACKs. -/
def RefI2c.nextAck (r : RefI2c) : Bool := r.acks.headD true

/-- A NACK received by the master: the NACK flag and the automatic STOP (R48 (a), (b), (e), (f)). The transfer is closed, so
no flag becomes 1 for it again. -/
def RefI2c.nacked (r : RefI2c) : RefI2c := { r with closed := true, nackf := true, stopf := r.stopf.raise }

/-- What follows the last of NBYTES bytes: TC without AUTOEND, STOP with it (R48 (c), (e), (f)). -/
def RefI2c.ended (r : RefI2c) : RefI2c :=
  if r.autoend then { r with closed := true, stopf := r.stopf.raise } else { r with tc := r.tc.raise }

/-- The next byte of a read transfer in RXDATA, if one is left to receive (R48 (d)). -/
def RefI2c.arrive (r : RefI2c) : RefI2c :=
  if r.moved < r.nbytes then
    let r1 := { r with rxne := r.rxne.raise, moved := r.moved + 1 }
    if r1.moved = r1.nbytes then r1.ended else r1
  else r

/-- The peripheral's own answer to the byte it received last: ACK for every byte but the last of NBYTES (R48 (d)). -/
def RefI2c.masterAcks (r : RefI2c) : Bool := decide (r.moved < r.nbytes)

/-- A polled flag of the reference peripheral. -/
def RefI2c.flag (r : RefI2c) (f : I2cFlag) : RefFlag :=
  match f with
  | .txis => r.txis
  | .tc => r.tc
  | .rxne => r.rxne
  | .stopf => r.stopf

/-- The reference peripheral with a polled flag at `x`. -/
def RefI2c.withFlag (r : RefI2c) (f : I2cFlag) (x : RefFlag) : RefI2c :=
  match f with
  | .txis => { r with txis := x }
  | .tc => { r with tc := x }
  | .rxne => { r with rxne := x }
  | .stopf => { r with stopf := x }

/-- A poll of the reference I2C peripheral, or none: the contract does not admit it. TC seen 1 says that every byte has been
transferred, so that a byte received last is in RXDATA (R48 (c), (d)). -/
def RefI2c.afterPoll (r : RefI2c) (f : I2cFlag) (v : Bool) : Option RefI2c :=
  match (r.flag f).poll v with
  | some x =>
    let r1 := r.withFlag f x
    some (if f = .tc ∧ v = true then { r1 with rxne := r1.rxne.settle } else r1)
  | none => none

/-- A START: the address byte goes out; on an ACK TXIS rises or, in a read, the first byte arrives (R48 (a), (d)). It
clears TC (R48 (c)). A STOP that was due comes before the START on the bus, so STOPF is 1 from here on until it is cleared
(R48 (e), (f), (g)); that this holds from the register write on is a DESIGN CHOICE (log 21). -/
def RefI2c.restart (r : RefI2c) (rdWrn : Bool) (nbytes : Nat) (autoend : Bool) : RefI2c :=
  let r1 :=
    { r with
      rdWrn := rdWrn, autoend := autoend, nbytes := nbytes, moved := 0, closed := false, tc := .low
      stopf := r.stopf.settle
      acks := r.acks.tail }
  if r.nextAck then (if rdWrn then r1.arrive else { r1 with txis := r1.txis.raise }) else r1.nacked

/-- A byte written (R48 (b), (c), (e)): TXIS falls, and rises again on an ACK while bytes are left. A byte outside a write
transfer, or after its end, sets nothing. -/
def RefI2c.send (r : RefI2c) : RefI2c :=
  let r1 := { r with txis := .low }
  if r.closed || r.rdWrn || decide (r.nbytes ≤ r.moved) then r1
  else
    let r2 := { r1 with moved := r.moved + 1, acks := r.acks.tail }
    if r.nextAck then (if r2.moved < r2.nbytes then { r2 with txis := .due } else r2.ended) else r2.nacked

/-- A byte read: RXNE falls, and the next byte of the transfer arrives (R48 (d)). -/
def RefI2c.receive (r : RefI2c) : RefI2c :=
  let r1 := { r with rxne := .low }
  if r.closed || !r.rdWrn then r1 else r1.arrive

/-- `I2C_STOP`: the STOP ends the transfer, clears TC and is detected (R48 (c), (e), (f)). DESIGN CHOICE (log 21): it does so
too where no transfer is open, or before NBYTES bytes have moved, of which R48 (e) says nothing. -/
def RefI2c.stopNow (r : RefI2c) : RefI2c :=
  { r with closed := true, tc := .low, stopf := r.stopf.raise }

/-- `I2C_CLRSTOPF` (R48 (f)). -/
def RefI2c.clearStopf (r : RefI2c) : RefI2c := { r with stopf := .low }

/-- One event at the reference I2C peripheral (R48), or none: the contract does not admit it. Of its polls, those of TXIS,
TC, RXNE and STOPF answer as `RefFlag.poll` says; a transfer-control write without START leaves all as it is (log 21). -/
def RefI2c.after (r : RefI2c) (ev : Event) : Option RefI2c :=
  match ev with
  | .i2cCr2 _ rdWrn nbytes autoend start => some (if start then r.restart rdWrn nbytes.toNat autoend else r)
  | .i2cTx _ => some r.send
  | .i2cRx _ => some r.receive
  | .i2cStop => some r.stopNow
  | .i2cClrStopf => some r.clearStopf
  | .i2cPoll f v => r.afterPoll f v
  | .i2cPe pe => some (if pe then r else RefI2c.start r.acks)
  | .i2cClkSel _ | .i2cTiming _ _ _ _ _ | .spiSpe _ | .spiCfg _ | .spiTx8 _ | .spiTx16 _ | .spiRx8 _ | .spiRx16 _
  | .spiPoll _ _ | .csHigh | .csLow => some r

/-- The reference I2C peripheral after a trace, or none: some answer in the trace breaks the contract. -/
def RefI2c.run (r : RefI2c) : List Event → Option RefI2c
  | [] => some r
  | ev :: rest =>
    match r.after ev with
    | some r' => r'.run rest
    | none => none

/-- The contract of 10_state R48: the trace is one the reference peripheral admits, for the slave's answers `acks`, with
every flag 0 before it (`RefI2c.start`, log 21). -/
def i2cContract (acks : List Bool) (trace : List Event) : Bool := ((RefI2c.start acks).run trace).isSome

/-- STOPF is left set by a trace: the STOP was detected, or is due and no event clears the flag any more (R48 (f), (g),
70_reset R262). -/
def stopfLeftSet (acks : List Bool) (trace : List Event) : Bool :=
  match (RefI2c.start acks).run trace with
  | some r => decide (r.stopf ≠ .low)
  | none => false

/-- The reference SPI peripheral: the last DR write whose exchange has not been read, with its width in bytes, whether that
exchange is the only one not read, and the two flags (R55 (a), (b)). -/
structure RefSpi where
  sent : Option (Nat × BitVec 16)
  alone : Bool
  txe : RefFlag
  rxne : RefFlag
deriving DecidableEq, Repr

/-- The reference SPI peripheral with nothing written to DR: DR can accept a value (R55 (a)). DESIGN CHOICE (log 21): a
trace begins with no exchange unread and RXNE 0; R55 gives no start. -/
def RefSpi.start : RefSpi := ⟨none, true, .high, .low⟩

/-- A DR write of `width` bytes. TXE is 1 again once DR has passed the value on, and RXNE once the exchange is complete
(R55 (a), (b)); both are due, since neither moment is timed. -/
def RefSpi.afterWrite (r : RefSpi) (width : Nat) (v : BitVec 16) : RefSpi :=
  ⟨some (width, v), r.sent.isNone, .due, r.rxne.raise⟩

/-- A poll of the reference SPI peripheral, or none: the contract does not admit it. RXNE seen 1 for the only exchange says
that it is complete, so that DR can accept a value. -/
def RefSpi.afterPoll (r : RefSpi) (f : SpiFlag) (v : Bool) : Option RefSpi :=
  match f with
  | .txe =>
    match r.txe.poll v with
    | some x => some { r with txe := x }
    | none => none
  | .rxne =>
    match r.rxne.poll v with
    | some x => some { r with rxne := x, txe := if v && r.alone then r.txe.settle else r.txe }
    | none => none

/-- A DR read of `width` bytes returning `v`, or none. It returns what was received in the exchange of the DR write it
follows (42_spi R183), at that write's width (R54), and clears RXNE (R55 (b)). With `echo`, that is the value sent in the
exchange (R55 (c)). DESIGN CHOICE (log 21): an exchange left unread before that write is lost. -/
def RefSpi.afterRead (echo : Bool) (r : RefSpi) (width : Nat) (v : BitVec 16) : Option RefSpi :=
  match r.sent with
  | some (w, x) => if w = width ∧ (echo = true → v = x) then some RefSpi.start else none
  | none => none

/-- One event at the reference SPI peripheral (R55), or none: the contract does not admit it. DESIGN CHOICE (log 21): R55
gives SPI_SPE and SPI_CFG no effect on the flags or on an unread value, so neither changes anything here. -/
def RefSpi.after (echo : Bool) (r : RefSpi) (ev : Event) : Option RefSpi :=
  match ev with
  | .spiTx8 b => some (r.afterWrite 1 (b.setWidth 16))
  | .spiTx16 w => some (r.afterWrite 2 w)
  | .spiRx8 v => r.afterRead echo 1 (v.setWidth 16)
  | .spiRx16 v => r.afterRead echo 2 v
  | .spiPoll f v => r.afterPoll f v
  | .i2cClkSel _ | .i2cPe _ | .i2cTiming _ _ _ _ _ | .i2cCr2 _ _ _ _ _ | .i2cStop | .i2cTx _ | .i2cRx _ | .i2cPoll _ _
  | .i2cClrStopf | .spiSpe _ | .spiCfg _ | .csHigh | .csLow => some r

/-- The reference SPI peripheral after a trace, or none: some answer in the trace breaks the contract. -/
def RefSpi.run (echo : Bool) (r : RefSpi) : List Event → Option RefSpi
  | [] => some r
  | ev :: rest =>
    match r.after echo ev with
    | some r' => r'.run echo rest
    | none => none

/-- The contract of 10_state R55 (a), (b), and with `echo` also (c), from `RefSpi.start` (log 21). -/
def spiContract (echo : Bool) (trace : List Event) : Bool := (RefSpi.start.run echo trace).isSome

end Sys2Proof.Machine
end

