-- ==== Sys2Proof/Machine/Regmap.lean ====
section
/-! DEFINITION. REGMAP, the binding of the named peripheral fields to addresses and bits: a parameter (00_scope R9,
93_implementation_defined U24). Its reference binding is `RegMap.reference`: the STM32 I2C v2 layout (10_state R45) and the
SPI layout with a data-size field (R52), PRESUMED throughout, since the spec marks both as general knowledge. Views of the
state and of the events; no step reads them (log 20). -/

namespace Sys2Proof.Machine

/-- One access to a peripheral register, at its offset from the peripheral's base, or to the CS pin. -/
inductive RegAccess where
  /-- A write of the whole register. -/
  | write (off : Nat) (v : BitVec 32)
  /-- An 8-bit or 16-bit write of the SPI data register. -/
  | writeNarrow (off : Nat) (bytes : Nat) (v : BitVec 16)
  /-- A write of the bits under `mask` that leaves the register's other bits as they are. -/
  | modify (off : Nat) (mask v : BitVec 32)
  /-- A read of `bytes` bytes. -/
  | read (off : Nat) (bytes : Nat)
  /-- A read of one status bit. -/
  | readBit (off : Nat) (bit : Nat)
  /-- The GPIO drive of a pin. -/
  | pin (name : Nat) (high : Bool)
deriving DecidableEq, Repr

/-- The address of an access: the base its offset counts from and the offset (20_memory R79). -/
def RegAccess.address (base : Nat) : RegAccess → Option Nat
  | .write off _ | .writeNarrow off _ _ | .modify off _ _ | .read off _ | .readBit off _ => some (base + off)
  | .pin _ _ => none

/-- The register words after an access, from the words before it, by offset. -/
def RegAccess.written (old : Nat → BitVec 32) : RegAccess → Nat → BitVec 32
  | .write off v => fun o => if o = off then v else old o
  | .modify off mask v => fun o => if o = off then (old o &&& ~~~mask) ||| (v &&& mask) else old o
  | .writeNarrow _ _ _ | .read _ _ | .readBit _ _ | .pin _ _ => old

/-- A Bool as one bit of a word. -/
def bitAt (b : Bool) (pos : Nat) : BitVec 32 := flagWord b <<< pos

/-- A field as the bits of a word from `pos` up. -/
def fieldAt {w : Nat} (v : BitVec w) (pos : Nat) : BitVec 32 := v.setWidth 32 <<< pos

/-! ### The I2C peripheral (10_state R45) -/

/-- CR1. -/
def I2cPeripheral.cr1 (p : I2cPeripheral) : BitVec 32 :=
  let o := p.cr1Other
  bitAt p.pe 0 ||| fieldAt o.interruptEnables 1 ||| fieldAt o.dnf 8 ||| bitAt o.anfoff 12 ||| fieldAt o.dmaEnables 14
    ||| bitAt o.sbc 16 ||| bitAt o.nostretch 17 ||| bitAt o.wupen 18 ||| bitAt o.gcen 19 ||| fieldAt o.smbus 20

/-- CR2. -/
def I2cPeripheral.cr2 (p : I2cPeripheral) : BitVec 32 :=
  fieldAt p.sadd 0 ||| bitAt p.rdWrn 10 ||| bitAt p.add10 11 ||| bitAt p.head10r 12 ||| bitAt p.start 13
    ||| bitAt p.stop 14 ||| bitAt p.nackReq 15 ||| fieldAt p.nbytes 16 ||| bitAt p.reload 24 ||| bitAt p.autoend 25
    ||| bitAt p.pecByte 26

/-- TIMINGR. -/
def I2cPeripheral.timingr (p : I2cPeripheral) : BitVec 32 :=
  fieldAt p.presc 28 ||| fieldAt p.scldel 20 ||| fieldAt p.sdadel 16 ||| fieldAt p.sclh 8 ||| fieldAt p.scll 0

/-- ISR. -/
def I2cStatus.word (r : I2cStatus) : BitVec 32 :=
  bitAt r.txe 0 ||| bitAt r.txis 1 ||| bitAt r.rxne 2 ||| bitAt r.addr 3 ||| bitAt r.nackf 4 ||| bitAt r.stopf 5
    ||| bitAt r.tc 6 ||| bitAt r.tcr 7 ||| bitAt r.berr 8 ||| bitAt r.arlo 9 ||| bitAt r.ovr 10 ||| bitAt r.busy 15

/-- The offsets of the I2C registers that hold something. ICR (0x1C) holds nothing: it only clears. -/
def i2cOffsets : List Nat := [0x00, 0x04, 0x10, 0x18, 0x24, 0x28]

/-- The I2C register at an offset: CR1, CR2, TIMINGR, ISR, RXDR, TXDR. -/
def I2cPeripheral.word (p : I2cPeripheral) (off : Nat) : BitVec 32 :=
  if off = 0x00 then p.cr1
  else if off = 0x04 then p.cr2
  else if off = 0x10 then p.timingr
  else if off = 0x18 then p.isr.word
  else if off = 0x24 then fieldAt p.rxdata 0
  else if off = 0x28 then fieldAt p.txdata 0
  else 0

/-- The ISR bit of a polled flag. -/
def I2cFlag.isrBit : I2cFlag → Nat
  | .txis => 1
  | .rxne => 2
  | .stopf => 5
  | .tc => 6

/-- The clear bits of ICR. -/
inductive IcrBit where
  | nackcf | stopcf | berrcf | arlocf | ovrcf
deriving DecidableEq, Repr

/-- The place of a clear bit, which is that of the ISR flag it clears. -/
def IcrBit.pos : IcrBit → Nat
  | .nackcf => 4
  | .stopcf => 5
  | .berrcf => 8
  | .arlocf => 9
  | .ovrcf => 10

/-! ### The SPI peripheral (10_state R52) -/

/-- CR1. -/
def SpiPeripheral.cr1 (p : SpiPeripheral) : BitVec 32 :=
  let o := p.cr1Other
  bitAt p.cpha 0 ||| bitAt p.cpol 1 ||| bitAt p.mstr 2 ||| fieldAt p.br 3 ||| bitAt p.spe 6 ||| bitAt p.lsbfirst 7
    ||| bitAt p.ssi 8 ||| bitAt p.ssm 9 ||| bitAt o.rxonly 10 ||| bitAt o.crcl 11 ||| bitAt o.crcnext 12
    ||| bitAt o.crcen 13 ||| bitAt o.bidioe 14 ||| bitAt o.bidimode 15

/-- The DS code of a frame size. -/
def FrameSize.ds : FrameSize → BitVec 4
  | .bits8 => 0b0111
  | .bits16 => 0b1111

/-- CR2. -/
def SpiPeripheral.cr2 (p : SpiPeripheral) : BitVec 32 :=
  let o := p.cr2Other
  bitAt o.rxdmaen 0 ||| bitAt o.txdmaen 1 ||| bitAt o.ssoe 2 ||| bitAt o.nssp 3 ||| bitAt o.frf 4 ||| bitAt o.errie 5
    ||| bitAt o.rxneie 6 ||| bitAt o.txeie 7 ||| fieldAt p.frame.ds 8 ||| bitAt o.frxth 12

/-- SR. -/
def SpiStatus.word (r : SpiStatus) : BitVec 32 :=
  bitAt r.rxne 0 ||| bitAt r.txe 1 ||| bitAt r.crcerr 4 ||| bitAt r.modf 5 ||| bitAt r.ovr 6 ||| bitAt r.bsy 7
    ||| bitAt r.fre 8 ||| fieldAt r.frlvl 9 ||| fieldAt r.ftlvl 11

/-- The offsets of the SPI registers other than DR. -/
def spiOffsets : List Nat := [0x00, 0x04, 0x08]

/-- The SPI register at an offset: CR1, CR2, SR. DR (0x0C) is `drTx` to a write and `drRx` to a read. -/
def SpiPeripheral.word (p : SpiPeripheral) (off : Nat) : BitVec 32 :=
  if off = 0x00 then p.cr1
  else if off = 0x04 then p.cr2
  else if off = 0x08 then p.sr.word
  else 0

/-- The SR bit of a polled flag. -/
def SpiFlag.srBit : SpiFlag → Nat
  | .rxne => 0
  | .txe => 1

/-- The SPI peripheral as board bring-up leaves it in a reference-bound model: FRXTH is the parameter of
93_implementation_defined U25, and no event of the engine writes it. -/
def SpiPeripheral.broughtUp (p : SpiPeripheral) : SpiPeripheral :=
  { p with cr2Other := { p.cr2Other with frxth := Config.spiFrxth } }

/-- What RXNE means under FRXTH, for a number of bytes received and not read (91_not_in_source N14; PRESUMED). The
machine uses the flag-level contract instead (R55 (b)). -/
def rxneUnder (frxth : Bool) (received : Nat) : Bool := decide ((if frxth then 1 else 2) ≤ received)

/-! ### The accesses of the events (10_state R45, R52) -/

/-- The register accesses of an event. `p` are the I2C peripheral's fields right before it. The location of CLKSEL is OPEN
(R49), so `i2cClkSel` has none here. DESIGN CHOICE (log 20): `i2cRx` is a 1-byte read of RXDR, since R45 says only that it
returns RXDR[7:0]. `spiCfg` writes CR1 whole, with SPE 0, and the DS field of CR2. -/
def refAccess (p : I2cPeripheral) : Event → List RegAccess
  | .i2cClkSel _ => []
  | .i2cPe b => [.write 0x00 (bitAt b 0)]
  | .i2cTiming presc scldel sdadel sclh scll =>
    [.write 0x10 (fieldAt presc 28 ||| fieldAt scldel 20 ||| fieldAt sdadel 16 ||| fieldAt sclh 8 ||| fieldAt scll 0)]
  | .i2cCr2 sadd rdWrn nbytes autoend start =>
    [.write 0x04 (fieldAt sadd 0 ||| bitAt rdWrn 10 ||| bitAt start 13 ||| fieldAt nbytes 16 ||| bitAt autoend 25)]
  | .i2cStop => [.write 0x04 (p.cr2 ||| (1#32 <<< 14))]
  | .i2cTx b => [.write 0x28 (fieldAt b 0)]
  | .i2cRx _ => [.read 0x24 1]
  | .i2cPoll f _ => [.readBit 0x18 f.isrBit]
  | .i2cClrStopf => [.write 0x1C (1#32 <<< IcrBit.stopcf.pos)]
  | .spiSpe b => [.modify 0x00 (1#32 <<< 6) (bitAt b 6)]
  | .spiCfg br => [.write 0x00 (0x0304#32 ||| fieldAt br 3), .modify 0x04 0x0F00#32 0x0700#32]
  | .spiTx8 b => [.writeNarrow 0x0C 1 (b.setWidth 16)]
  | .spiTx16 w => [.writeNarrow 0x0C 2 w]
  | .spiRx8 _ => [.read 0x0C 1]
  | .spiRx16 _ => [.read 0x0C 2]
  | .spiPoll f _ => [.readBit 0x08 f.srBit]
  | .csHigh => [.pin Config.csPin true]
  | .csLow => [.pin Config.csPin false]

/-! ### REGMAP (00_scope R9, 10_state R42, R45, R50, R52) -/

/-- The named fields and flags of the I2C peripheral that stand in a register (10_state R42, R43, R44). CLKSEL is none of
them: its location belongs to the clock controller (R49). -/
inductive I2cField where
  | pe | presc | scldel | sdadel | sclh | scll
  | sadd | rdWrn | nbytes | autoend | start | stop
  | add10 | reload | nackReq | pecByte
  | txdata | rxdata
  | flag (f : I2cFlag)
deriving DecidableEq, Repr, Inhabited

/-- The named fields and flags of the SPI peripheral that stand in a register (10_state R50, R51). -/
inductive SpiField where
  | mstr | ssm | ssi | br | cpol | cpha | lsbfirst | frame | spe
  | flag (f : SpiFlag)
deriving DecidableEq, Repr, Inhabited

/-- Where a field stands: its register's offset, its lowest bit and its width. -/
structure FieldPlace where
  off : Nat
  pos : Nat
  width : Nat
deriving DecidableEq, Repr, Inhabited

/-- The bits of a word at a place, zero-extended. -/
def FieldPlace.of (p : FieldPlace) (w : BitVec 32) : BitVec 32 := ((w >>> p.pos).setWidth p.width).setWidth 32

/-- The events that write control fields of the I2C peripheral or TXDATA (10_state R40, R43). -/
def Event.writesI2cControl : Event → Bool
  | .i2cPe _ | .i2cTiming _ _ _ _ _ | .i2cCr2 _ _ _ _ _ | .i2cStop | .i2cTx _ => true
  | .i2cClkSel _ | .i2cRx _ | .i2cPoll _ _ | .i2cClrStopf | .spiSpe _ | .spiCfg _ | .spiTx8 _ | .spiTx16 _ | .spiRx8 _
  | .spiRx16 _ | .spiPoll _ _ | .csHigh | .csLow => false

/-- The events that write control fields of the SPI peripheral (10_state R40, R50). -/
def Event.writesSpiControl : Event → Bool
  | .spiSpe _ | .spiCfg _ => true
  | .i2cClkSel _ | .i2cPe _ | .i2cTiming _ _ _ _ _ | .i2cCr2 _ _ _ _ _ | .i2cStop | .i2cTx _ | .i2cRx _ | .i2cPoll _ _
  | .i2cClrStopf | .spiTx8 _ | .spiTx16 _ | .spiRx8 _ | .spiRx16 _ | .spiPoll _ _ | .csHigh | .csLow => false

/-- What a binding gives for CLKSEL (10_state R45, R49: OPEN): a base of its own, since the field lives in the clock
controller and not in the I2C block, its place from that base, and its code. DESIGN CHOICE (log 20): the shape, and that
the offsets of I2C_CLKSEL's accesses count from `base`. -/
structure ClkselBinding where
  base : Nat
  place : FieldPlace
  code : ClockSource → BitVec 32
deriving Inhabited

/-- REGMAP (00_scope R9): a binding of the named peripheral fields to addresses and bits. DESIGN CHOICE (log 20): the shape
of a binding, and 32-bit registers in it. -/
structure RegMap where
  /-- The place of each named field. -/
  i2cPlace : I2cField → FieldPlace
  spiPlace : SpiField → FieldPlace
  /-- The offset of the SPI data register. -/
  drOff : Nat
  /-- The code of a frame size in FRAME's place. -/
  frameCode : FrameSize → BitVec 32
  /-- CLKSEL, where the binding gives its location. -/
  clksel : Option ClkselBinding
  /-- The offsets of the registers that hold something, and what they hold. -/
  i2cOffsets : List Nat
  i2cWord : I2cPeripheral → Nat → BitVec 32
  spiOffsets : List Nat
  spiWord : SpiPeripheral → Nat → BitVec 32
  /-- The register accesses of an event, the I2C peripheral's fields right before it given. -/
  access : I2cPeripheral → Event → List RegAccess
deriving Inhabited

/-- A named field of the I2C peripheral, zero-extended. -/
def I2cPeripheral.field (p : I2cPeripheral) (f : I2cField) : BitVec 32 :=
  match f with
  | .pe => flagWord p.pe
  | .presc => p.presc.setWidth 32
  | .scldel => p.scldel.setWidth 32
  | .sdadel => p.sdadel.setWidth 32
  | .sclh => p.sclh.setWidth 32
  | .scll => p.scll.setWidth 32
  | .sadd => p.sadd.setWidth 32
  | .rdWrn => flagWord p.rdWrn
  | .nbytes => p.nbytes.setWidth 32
  | .autoend => flagWord p.autoend
  | .start => flagWord p.start
  | .stop => flagWord p.stop
  | .add10 => flagWord p.add10
  | .reload => flagWord p.reload
  | .nackReq => flagWord p.nackReq
  | .pecByte => flagWord p.pecByte
  | .txdata => p.txdata.setWidth 32
  | .rxdata => p.rxdata.setWidth 32
  | .flag .txis => flagWord p.isr.txis
  | .flag .tc => flagWord p.isr.tc
  | .flag .rxne => flagWord p.isr.rxne
  | .flag .stopf => flagWord p.isr.stopf

/-- A named field of the SPI peripheral, zero-extended, FRAME by its code in the binding. -/
def SpiPeripheral.field (m : RegMap) (p : SpiPeripheral) (f : SpiField) : BitVec 32 :=
  match f with
  | .mstr => flagWord p.mstr
  | .ssm => flagWord p.ssm
  | .ssi => flagWord p.ssi
  | .br => p.br.setWidth 32
  | .cpol => flagWord p.cpol
  | .cpha => flagWord p.cpha
  | .lsbfirst => flagWord p.lsbfirst
  | .frame => m.frameCode p.frame
  | .spe => flagWord p.spe
  | .flag .txe => flagWord p.sr.txe
  | .flag .rxne => flagWord p.sr.rxne

/-- CLKSEL where the binding places it, with its code (10_state R49). -/
def I2cPeripheral.clkselField (m : RegMap) (p : I2cPeripheral) : Option (FieldPlace × BitVec 32) :=
  m.clksel.map fun c => (c.place, c.code p.clksel)

/-- The places of the I2C fields in the reference binding (10_state R45). -/
def referenceI2cPlace : I2cField → FieldPlace
  | .pe => ⟨0x00, 0, 1⟩
  | .sadd => ⟨0x04, 0, 10⟩
  | .rdWrn => ⟨0x04, 10, 1⟩
  | .add10 => ⟨0x04, 11, 1⟩
  | .start => ⟨0x04, 13, 1⟩
  | .stop => ⟨0x04, 14, 1⟩
  | .nackReq => ⟨0x04, 15, 1⟩
  | .nbytes => ⟨0x04, 16, 8⟩
  | .reload => ⟨0x04, 24, 1⟩
  | .autoend => ⟨0x04, 25, 1⟩
  | .pecByte => ⟨0x04, 26, 1⟩
  | .scll => ⟨0x10, 0, 8⟩
  | .sclh => ⟨0x10, 8, 8⟩
  | .sdadel => ⟨0x10, 16, 4⟩
  | .scldel => ⟨0x10, 20, 4⟩
  | .presc => ⟨0x10, 28, 4⟩
  | .flag f => ⟨0x18, f.isrBit, 1⟩
  | .rxdata => ⟨0x24, 0, 8⟩
  | .txdata => ⟨0x28, 0, 8⟩

/-- The places of the SPI fields in the reference binding (10_state R52). -/
def referenceSpiPlace : SpiField → FieldPlace
  | .cpha => ⟨0x00, 0, 1⟩
  | .cpol => ⟨0x00, 1, 1⟩
  | .mstr => ⟨0x00, 2, 1⟩
  | .br => ⟨0x00, 3, 3⟩
  | .spe => ⟨0x00, 6, 1⟩
  | .lsbfirst => ⟨0x00, 7, 1⟩
  | .ssi => ⟨0x00, 8, 1⟩
  | .ssm => ⟨0x00, 9, 1⟩
  | .frame => ⟨0x04, 8, 4⟩
  | .flag f => ⟨0x08, f.srBit, 1⟩

/-- The reference binding of REGMAP (10_state R45, R52; PRESUMED, log 20). -/
def RegMap.reference : RegMap where
  i2cPlace := referenceI2cPlace
  spiPlace := referenceSpiPlace
  drOff := 0x0C
  frameCode := fun size => size.ds.setWidth 32
  clksel := none
  i2cOffsets := Machine.i2cOffsets
  i2cWord := I2cPeripheral.word
  spiOffsets := Machine.spiOffsets
  spiWord := SpiPeripheral.word
  access := refAccess

/-- A binding whose words hold the named fields at their places, and whose accesses of an event write those fields as the
event does: what a claim about another binding than the reference one assumes. -/
structure RegMap.Sound (m : RegMap) : Prop where
  /-- 10_state R42-R44: each I2C field stands at its place. -/
  i2cHeld : ∀ (p : I2cPeripheral) (f : I2cField),
    (m.i2cPlace f).off ∈ m.i2cOffsets ∧ (m.i2cPlace f).of (m.i2cWord p (m.i2cPlace f).off) = p.field f
  /-- 10_state R50, R51: each SPI field stands at its place. -/
  spiHeld : ∀ (p : SpiPeripheral) (f : SpiField),
    (m.spiPlace f).off ∈ m.spiOffsets ∧ (m.spiPlace f).of (m.spiWord p (m.spiPlace f).off) = p.field m f
  /-- 10_state R40, R43: the accesses of an event that writes I2C control fields leave those fields as the event does. -/
  i2cWrites : ∀ (s : State) (ev : Event) (f : I2cField), ev.writesI2cControl = true →
    (m.i2cPlace f).of ((m.access s.i2cPer ev).foldl RegAccess.written (m.i2cWord s.i2cPer) (m.i2cPlace f).off) =
      (s.applyEvent ev).i2cPer.field f
  /-- 10_state R40, R50: the same of the SPI control fields; SPI_CFG comes while SPE = 0 (42_spi R190). -/
  spiWrites : ∀ (s : State) (ev : Event) (f : SpiField), ev.writesSpiControl = true →
    ((∃ br, ev = .spiCfg br) → s.spiPer.spe = false) →
    (m.spiPlace f).of ((m.access s.i2cPer ev).foldl RegAccess.written (m.spiWord s.spiPer) (m.spiPlace f).off) =
      (s.applyEvent ev).spiPer.field m f
  /-- 10_state R44, R51: a poll reads its flag's bit. -/
  polls : ∀ (p : I2cPeripheral) (v : Bool),
    (∀ f, m.access p (.i2cPoll f v) = [.readBit (m.i2cPlace (.flag f)).off (m.i2cPlace (.flag f)).pos]) ∧
    (∀ f, m.access p (.spiPoll f v) = [.readBit (m.spiPlace (.flag f)).off (m.spiPlace (.flag f)).pos])
  /-- 10_state R47, R54: the data events reach the data registers. That I2C_RX reads 1 byte is the model's (log 20). -/
  data : ∀ (p : I2cPeripheral) (b : Byte) (w : Half),
    m.access p (.i2cRx b) = [.read (m.i2cPlace .rxdata).off 1] ∧
    m.access p (.spiTx8 b) = [.writeNarrow m.drOff 1 (b.setWidth 16)] ∧ m.access p (.spiTx16 w) = [.writeNarrow m.drOff 2 w] ∧
    m.access p (.spiRx8 b) = [.read m.drOff 1] ∧ m.access p (.spiRx16 w) = [.read m.drOff 2]

end Sys2Proof.Machine

namespace Sys2Proof.Config

/-- REGMAP, a parameter (00_scope R9, 92_eei_decisions D8, 93_implementation_defined U24). The reference binding
`RegMap.reference` is one of the values it may have. -/
opaque regmap : Machine.RegMap

end Sys2Proof.Config

namespace Sys2Proof.Machine

/-- The base from which the offsets of an event's accesses count: the base of engine `e`'s peripheral, and for I2C_CLKSEL
the base the binding gives with CLKSEL, if it gives one (10_state R45, R49; log 20). -/
def RegMap.base (m : RegMap) (e : EngineId) (ev : Event) : Option Nat :=
  match ev with
  | .i2cClkSel _ => m.clksel.map ClkselBinding.base
  | _ => some (Config.peripheralBase e)

/-- The accesses of an event of engine `e` under the binding REGMAP, each with its address (20_memory R79). -/
def boundAccesses (e : EngineId) (p : I2cPeripheral) (ev : Event) : List (Option Nat × RegAccess) :=
  (Config.regmap.access p ev).map fun a => ((Config.regmap.base e ev).bind a.address, a)

end Sys2Proof.Machine
end

