-- ==== Sys2Proof/Safety.lean ====
section
/-! DEFINITION. The terms claims are stated in: fault-free and idle engines, runs of one sequencer, what a stretch of
trace holds, the step bounds of 40_sequencer R117, and the invariant of every step. -/

namespace Sys2Proof.Machine

/-- No host fault is recorded against the engine: every property of the spec is stated for such runs
(60_exceptions R235). -/
abbrev Engine.FaultFree (x : Engine) : Prop := x.faults = FaultSet.empty

/-- The engine has no enabled step and is at IDLE (10_state R24, R37). -/
abbrev Engine.Idle (x : Engine) : Prop := x.status.busy = false ∧ x.mpc = .idle

/-- The engine can take a command within the spec: fault-free, idle, and initialised unless the command is an INIT
(70_reset R252, R260). -/
abbrev Engine.ReadyFor (i : Instr) (x : Engine) : Prop :=
  x.FaultFree ∧ x.Idle ∧ (i.isTransaction = true → x.status.init = true)

/-- `k` turns of one sequencer, stopping at the first fault or refusal. -/
def sequencerRun (e : EngineId) : Nat → State → Answer
  | 0, s => .next s
  | k + 1, s =>
    match sequencerTurn e s with
    | .next s' => sequencerRun e k s'
    | .fault r => .fault r
    | .refused r => .refused r

/-- A command taken by its engine and then `k` turns of that engine's sequencer. -/
def commandRun (i : Instr) (k : Nat) (s : State) : Answer :=
  match exec i s with
  | .next s' => sequencerRun i.engine k s'
  | .fault r => .fault r
  | .refused r => .refused r

/-- The events a run of an engine added to its trace. -/
def newEvents (e : EngineId) (s t : State) : List Event :=
  (t.engine e).trace.drop (s.engine e).trace.length

/-- The bytes the 8-bit reads of a trace returned, in order. -/
def receivedBytes (trace : List Event) : List Byte :=
  trace.filterMap fun ev =>
    match ev with
    | .i2cRx v => some v
    | .spiRx8 v => some v
    | _ => none

/-- The bytes the 8-bit data writes of a trace sent, in order. -/
def sentBytes (trace : List Event) : List Byte :=
  trace.filterMap fun ev =>
    match ev with
    | .i2cTx b => some b
    | .spiTx8 b => some b
    | _ => none

/-- The CS events of a trace, in order. -/
def csEvents (trace : List Event) : List Event :=
  trace.filter fun ev => ev == .csLow || ev == .csHigh

/-- The number of sequencer steps a command takes at most, where no wait has a budget above `b` (40_sequencer R117). -/
def stepBound (b : Nat) : Instr → Nat
  | .i2cInit => 5
  | .i2cRead _ _ n => 3 * b + n.toNat * b + n.toNat + 6
  | .i2cWrite _ _ n => 2 * b + n.toNat * b + n.toNat + 4
  | .spiInit => 5
  | .spiSr8 _ => 2 * b + 3
  | .spiSr16 _ => 2 * b + 3
  | .spiBurst _ n => 6 * b + 2 * n.toNat * b + 2 * n.toNat + 9

/-- The opcode of the command whose micro-program a label belongs to (41_i2c R140-R142, 42_spi R190-R193). -/
def labelOpcode : Label → Option (BitVec 4)
  | .idle => none
  | .in0 | .in1 | .in2 | .in3 | .in4 => some 0x1
  | .rd0 | .rd1 | .rd2 | .rd3 | .rd4 | .rd5 | .rd6 | .rd7 | .rd8 | .rd9 | .rd10 | .rdFail => some 0x2
  | .wr0 | .wr1 | .wr2 | .wr3 | .wr4 | .wr5 | .wr6 | .wr7 | .wrFail => some 0x3
  | .si0 | .si1 | .si2 | .si3 | .si4 => some 0x9
  | .x0 | .x1 | .x2 | .x3 | .x4 | .xFail => some 0xA
  | .y0 | .y1 | .y2 | .y3 | .y4 | .yFail => some 0xB
  | .b0 | .b1 | .b2 | .b3 | .b4 | .b5 | .b6 | .b7 | .b8 | .b9 | .b10 | .b11 | .b12 | .b13 | .b14 | .b15 | .b16
  | .b17 | .b18 | .bf0 | .bf1 => some 0xC

/-- The labels between CS_LOW and CS_HIGH of a burst: STATUS.CSDRV is 1 exactly there (42_spi R172). -/
def selectedAt : Label → Bool
  | .b1 | .b2 | .b3 | .b4 | .b5 | .b6 | .b7 | .b8 | .b9 | .b10 | .b11 | .b12 | .b13 | .b14 | .b15 | .b16 | .b17
  | .bf0 => true
  | _ => false

/-- The labels of the payload loops, where idx is below L.n (00_scope R14). -/
def payloadAt : Label → Bool
  | .rd5 | .rd6 | .wr3 | .wr4 | .b13 | .b14 | .b15 | .b16 => true
  | _ => false

/-- The labels of the failure paths (60_exceptions R238). -/
def failingAt : Label → Bool
  | .rdFail | .wrFail | .xFail | .yFail | .bf0 | .bf1 => true
  | _ => false

/-- The sites that record a residual (60_exceptions R222). -/
def residualSite : Site → Bool
  | .s3 | .s6 | .s16 | .s17 => true
  | _ => false

/-- A pending failure names a site, with the outcome and residual the table of 60_exceptions R222 gives that site. -/
def failRecordOk (f : FailRecord) : Bool :=
  match f.site with
  | none => false
  | some site => f.oc == siteOutcome site && (residualSite site == (f.res != 0))

/-- RESULT as 60_exceptions R220-R222 allow it: success without a site and a residual, or a site with its outcome and
residual. -/
def resultOk (r : Result) : Bool :=
  match r.failsite with
  | none => r.outcome == .success && r.residual == 0
  | some site => r.outcome == siteOutcome site && (residualSite site == (r.residual != 0))

/-- What every step keeps of an engine with no CmdWhileBusy recorded. -/
structure EngineInv (e : EngineId) (x : Engine) : Prop where
  /-- 10_state R24, R37: an idle engine is at IDLE. -/
  idle : x.status.busy = false → x.mpc = .idle
  /-- 40_sequencer R110: a busy engine runs the well-formed command in CMD, at a label of its micro-program. -/
  running : x.status.busy = true →
    ∃ i : Instr, runningCommand e x.latch = some i ∧ i.wellFormed = true ∧ x.cmd = encode i ∧
      labelOpcode x.mpc = some i.opcode
  /-- 42_spi R172: CSDRV is 1 exactly between B0 and B17 or BF0. -/
  csdrv : x.status.csdrv = selectedAt x.mpc
  /-- 00_scope R14: idx is below N in the payload loop. -/
  payload : payloadAt x.mpc = true → x.idx.toNat < x.latch.n.toNat
  /-- 10_state R38, 40_sequencer R112: at a wait the budget lies in 1 .. TIMEOUT_BUDGET(site). -/
  budget : ∀ site, awaitSite x.mpc = some site →
    1 ≤ x.budget.toNat ∧ x.budget.toNat ≤ (Config.timeoutBudget site).toNat
  /-- 60_exceptions R238: on a failure path the failure record is one of the table of R222. -/
  failure : failingAt x.mpc = true → failRecordOk x.fail = true
  /-- 60_exceptions R220, R222: so is RESULT. -/
  result : resultOk x.result = true

/-- The invariant of every step: each engine's BUF is canonical, each engine without a CmdWhileBusy keeps `EngineInv`,
and while SPIE holds CS the line is not High, and is Low unless the host contended (10_state R56, 60_exceptions R233). -/
structure Inv (s : State) : Prop where
  i2cBuf : s.i2c.buf.wf = true
  spiBuf : s.spi.buf.wf = true
  i2c : s.i2c.faults.cmdWhileBusy = false → EngineInv .i2ce s.i2c
  spi : s.spi.faults.cmdWhileBusy = false → EngineInv .spie s.spi
  csNotHigh : s.spi.faults.cmdWhileBusy = false → s.spi.status.csdrv = true → s.cs ≠ .high
  csLow : s.spi.faults.cmdWhileBusy = false → s.spi.faults.csContention = false →
    s.spi.status.csdrv = true → s.cs = .low

/-! ### The rows of the micro-program tables, as claims about exec -/

/-- exec answers a next state, and it is as `post` says. -/
def StepsTo (i : Instr) (s : State) (post : State → Prop) : Prop := ∃ t, exec i s = .next t ∧ post t

/-- `budget` after a step that moves mpc to an AWAIT of a site, or to a label that is no AWAIT (40_sequencer R111). -/
def loadedBudget (site : Option Site) (old : BitVec 32) : BitVec 32 :=
  match site with
  | some site => Config.timeoutBudget site
  | none => old

/-- An EMIT row (40_sequencer R114): at `label` of the command `i`, in every state of a fault-free engine, the step emits
`ev` and goes to `next`, whose site is `site` if it is an AWAIT; `also` is the row's phase and its further assignments. -/
def EmitsAt (i : Instr) (label : Label) (ev : Engine → Event) (next : Label) (site : Option Site)
    (also : Engine → Engine) : Prop :=
  ∀ s : State, (s.engine i.engine).FaultFree → (s.engine i.engine).mpc = label →
    exec i s = .next ((s.applyEvent (ev (s.engine i.engine))).setEngine i.engine
      { also (s.engine i.engine) with
        trace := (s.engine i.engine).trace ++ [ev (s.engine i.engine)]
        mpc := next
        budget := loadedBudget site (s.engine i.engine).budget })

/-- An AWAIT row (40_sequencer R112): at `label` of the command `i`, one poll whose answer is the environment's next; a 1
goes to `next`; a 0 counts the budget down and stays, or, where the budget allowed one poll more, records the failure and
goes to `failLabel`. `also` is the row's phase. Outside the engine only the flag the poll saw changes (log 31). -/
def AwaitsAt (i : Instr) (label : Label) (poll : Bool → Event) (oc : OutcomeCode) (site : Site)
    (res : Engine → BitVec 8) (next failLabel : Label) (nextSite : Option Site) (also : Engine → Engine) : Prop :=
  ∀ (s : State) (v : Bool) (env : Environment),
    (s.engine i.engine).FaultFree → (s.engine i.engine).mpc = label → 1 ≤ (s.engine i.engine).budget.toNat →
    (s.engine i.engine).env.drawFlag i.engine = (v, env) →
    exec i s = .next ((s.applyEvent (poll v)).setEngine i.engine
      (let x := { also (s.engine i.engine) with
                    env := env, trace := (s.engine i.engine).trace ++ [poll v] }
       if v = true then { x with mpc := next, budget := loadedBudget nextSite x.budget }
       else if x.budget.toNat = 1 then
         { x with budget := 0, fail := ⟨oc, some site, res (s.engine i.engine)⟩, mpc := failLabel }
       else { x with budget := x.budget - 1#32 }))

/-- An RX row whose value goes to tmp (40_sequencer R115): the value the environment answers, at the width `cut` gives,
joins the trace in `ev` and stays in tmp. -/
def ReceivesAt (i : Instr) (label : Label) (cut : BitVec 32 → BitVec 16) (ev : BitVec 16 → Event) (next : Label)
    (site : Option Site) (also : Engine → Engine) : Prop :=
  ∀ (s : State) (v : BitVec 32) (env : Environment),
    (s.engine i.engine).FaultFree → (s.engine i.engine).mpc = label →
    (s.engine i.engine).env.drawValue i.engine = (v, env) →
    exec i s = .next ((s.applyEvent (ev (cut v))).setEngine i.engine
      { also (s.engine i.engine) with
        env := env
        tmp := cut v
        trace := (s.engine i.engine).trace ++ [ev (cut v)]
        mpc := next
        budget := loadedBudget site (s.engine i.engine).budget })

/-- An RX row whose value goes to BUF[idx] (40_sequencer R115): the byte is stored, idx advances, and the loop test picks
the label. -/
def StoresAt (i : Instr) (label : Label) (ev : Byte → Event) (again : Label) (againSite : Site) (done : Label) : Prop :=
  ∀ (s : State) (v : BitVec 32) (env : Environment),
    (s.engine i.engine).FaultFree → (s.engine i.engine).mpc = label →
    (s.engine i.engine).idx.toNat < (s.engine i.engine).latch.n.toNat →
    (s.engine i.engine).env.drawValue i.engine = (v, env) →
    exec i s = .next ((s.applyEvent (ev (v.setWidth 8))).setEngine i.engine
      (let x := s.engine i.engine
       let more := x.idx.toNat + 1 < x.latch.n.toNat
       { x with
         env := env
         tmp := (v.setWidth 8).setWidth 16
         trace := x.trace ++ [ev (v.setWidth 8)]
         buf := x.buf.write x.idx.toNat (v.setWidth 8)
         idx := x.idx + 1#9
         mpc := if more then again else done
         budget := if more then Config.timeoutBudget againSite else x.budget }))

/-- A FINISH row (40_sequencer R116): RESULT, VALID, BUSY and mpc are written in one step, no event is emitted and nothing
outside the engine changes; `also` is the row's phase, and STATUS.INIT for an INIT command. -/
def FinishesAt (i : Instr) (label : Label) (res : Engine → Result) (also : Engine → Engine) : Prop :=
  ∀ s : State, (s.engine i.engine).FaultFree → (s.engine i.engine).mpc = label →
    exec i s = .next (s.setEngine i.engine
      (let x := also (s.engine i.engine)
       { x with
         result := res (s.engine i.engine)
         status := { x.status with valid := true, busy := false }
         mpc := .idle }))

/-- The FINISH(F) row of SPI_SR8 and SPI_SR16 (40_sequencer R116): as the others, with RDATA a draw. -/
def FinishesFailedExchangeAt (i : Instr) (label : Label) : Prop :=
  ∀ (s : State) (v : BitVec 32) (env : Environment),
    (s.engine i.engine).FaultFree → (s.engine i.engine).mpc = label →
    (s.engine i.engine).env.drawValue i.engine = (v, env) →
    exec i s = .next (s.setEngine i.engine
      (let x := s.engine i.engine
       { x with
         env := env
         result := ⟨x.fail.oc, x.fail.site, x.fail.res, v.setWidth 16⟩
         status := { x.status with valid := true, busy := false }
         mpc := .idle }))

/-- RESULT after FINISH(Success) of a command that returns no value (40_sequencer R116). -/
def successResult (x : Engine) : Result := ⟨.success, none, 0, x.result.rdata⟩

/-- RESULT after FINISH(F) of a command other than SPI_SR8 and SPI_SR16 (40_sequencer R116). -/
def failedResult (x : Engine) : Result := ⟨x.fail.oc, x.fail.site, x.fail.res, x.result.rdata⟩

/-- No phase set and no further assignment in a row. -/
def nothingElse (x : Engine) : Engine := x

/-- A row's "phase set" column. -/
def phaseSet (p : Phase) (x : Engine) : Engine := { x with status := { x.status with phase := p } }

/-- The waits of the micro-program tables: the poll event, the success label and the failure label of each AWAIT label
(41_i2c R141, R142, 42_spi R191-R193). -/
structure WaitRow where
  poll : Bool → Event
  next : Label
  failLabel : Label

/-- The AWAIT rows by label. -/
def waitRow : Label → Option WaitRow
  | .rd1 => some ⟨.i2cPoll .txis, .rd2, .rdFail⟩
  | .rd3 => some ⟨.i2cPoll .tc, .rd4, .rdFail⟩
  | .rd5 => some ⟨.i2cPoll .rxne, .rd6, .rdFail⟩
  | .rd8 => some ⟨.i2cPoll .stopf, .rd9, .rdFail⟩
  | .wr1 => some ⟨.i2cPoll .txis, .wr2, .wrFail⟩
  | .wr3 => some ⟨.i2cPoll .txis, .wr4, .wrFail⟩
  | .wr5 => some ⟨.i2cPoll .stopf, .wr6, .wrFail⟩
  | .x0 => some ⟨.spiPoll .txe, .x1, .xFail⟩
  | .x2 => some ⟨.spiPoll .rxne, .x3, .xFail⟩
  | .y0 => some ⟨.spiPoll .txe, .y1, .yFail⟩
  | .y2 => some ⟨.spiPoll .rxne, .y3, .yFail⟩
  | .b1 => some ⟨.spiPoll .txe, .b2, .bf0⟩
  | .b3 => some ⟨.spiPoll .rxne, .b4, .bf0⟩
  | .b5 => some ⟨.spiPoll .txe, .b6, .bf0⟩
  | .b7 => some ⟨.spiPoll .rxne, .b8, .bf0⟩
  | .b9 => some ⟨.spiPoll .txe, .b10, .bf0⟩
  | .b11 => some ⟨.spiPoll .rxne, .b12, .bf0⟩
  | .b13 => some ⟨.spiPoll .txe, .b14, .bf0⟩
  | .b15 => some ⟨.spiPoll .rxne, .b16, .bf0⟩
  | _ => none

/-! ### Tables the claims are stated with, written out from the rules -/

/-- The first label of a command's micro-program, with its site if it is an AWAIT (40_sequencer R110). -/
def firstRow : Instr → Label × Option Site
  | .i2cInit => (.in0, none)
  | .i2cRead _ _ _ => (.rd0, none)
  | .i2cWrite _ _ _ => (.wr0, none)
  | .spiInit => (.si0, none)
  | .spiSr8 _ => (.x0, some .s8)
  | .spiSr16 _ => (.y0, some .s8)
  | .spiBurst _ _ => (.b0, none)

/-- The labels of FINISH rows (41_i2c R140-R142, 42_spi R190-R193). -/
def finishesAt : Label → Bool
  | .in4 | .rd10 | .rdFail | .wr7 | .wrFail | .si4 | .x4 | .xFail | .y4 | .yFail | .b18 | .bf1 => true
  | _ => false

/-- The opcodes of an engine (30_encoding R95). -/
def engineOpcodes : EngineId → List (BitVec 4)
  | .i2ce => [0x1, 0x2, 0x3]
  | .spie => [0x9, 0xA, 0xB, 0xC]

/-- The bits of the Z fields of an opcode's format (30_encoding R92). -/
def zBits (op : BitVec 4) : BitVec 32 :=
  if op = 0x1#4 ∨ op = 0x9#4 then 0xFFFFFFF0#32
  else if op = 0x2#4 ∨ op = 0x3#4 then 0x000080F0#32
  else if op = 0xA#4 then 0xFF00FFF0#32
  else 0x0000FFF0#32

/-- An operand of the word is outside its legal range (30_encoding R93). -/
def outOfRange (op : BitVec 4) (n : BitVec 8) : Bool :=
  ((op == 0x2#4 || op == 0x3#4 || op == 0xC#4) && n == 0) || (op == 0x3#4 && n == 255)

/-- The wait sites of a command (60_exceptions R222). -/
def commandSites : Instr → List Site
  | .i2cInit => []
  | .i2cRead _ _ _ => [.s1, .s2, .s3, .s4]
  | .i2cWrite _ _ _ => [.s5, .s6, .s7]
  | .spiInit => []
  | .spiSr8 _ => [.s8, .s9]
  | .spiSr16 _ => [.s8, .s9]
  | .spiBurst _ _ => [.s10, .s11, .s12, .s13, .s14, .s15, .s16, .s17]

/-- `i` is a command that `s`'s engine could take, and `t` is a state with the command ended: what a claim about every
run of one command assumes. -/
def CommandEnded (i : Instr) (s t : State) : Prop :=
  (s.engine i.engine).ReadyFor i ∧ i.wellFormed = true ∧
    ∃ k, commandRun i k s = .next t ∧ (t.engine i.engine).status.busy = false

/-- RESULT of the engine of `i`. -/
abbrev resultOf (i : Instr) (t : State) : Result := (t.engine i.engine).result

end Sys2Proof.Machine
end

