-- ==== Sys2Proof/Certificates/Slice0/Obligations.lean ====
section
/-! DEFINITION. The statements for the provers. Each docstring names the rules it formalises. -/

open Sys2Proof Sys2Proof.Machine

/-! ### Encoding (30_encoding) -/

/-- 30_encoding R92, R97, R98: the word of a well-formed command decodes to that command at its engine. -/
def Obligations.DecodeInvertsEncode : Prop :=
  ∀ i : Instr, i.wellFormed = true → decode i.engine (encode i) = .ok i

/-- 30_encoding R92, R97, R98: a word that decodes is the encoding of what it decodes to, so no bit is dropped. -/
def Obligations.DecodedWordIsItsEncoding : Prop :=
  ∀ (e : EngineId) (w : Word) (i : Instr), decode e w = .ok i →
    encode i = w ∧ i.engine = e ∧ i.wellFormed = true

/-- 30_encoding R100: the examples of command words, and the rejected words with the check that fails. -/
def Obligations.ExampleWordsDecode : Prop :=
  (encode .i2cInit = 0x00000001 ∧ decode .i2ce 0x00000001 = .ok .i2cInit) ∧
  (encode (.i2cRead 0x76 0x00 2) = 0x02007602 ∧ decode .i2ce 0x02007602 = .ok (.i2cRead 0x76 0x00 2)) ∧
  (encode (.i2cWrite 0x76 0xF4 1) = 0x01F47603 ∧ decode .i2ce 0x01F47603 = .ok (.i2cWrite 0x76 0xF4 1)) ∧
  (encode (.i2cRead 0x7F 0xFF 255) = 0xFFFF7F02 ∧ decode .i2ce 0xFFFF7F02 = .ok (.i2cRead 0x7F 0xFF 255)) ∧
  (encode .spiInit = 0x00000009 ∧ decode .spie 0x00000009 = .ok .spiInit) ∧
  (encode (.spiSr8 0xA5) = 0x00A5000A ∧ decode .spie 0x00A5000A = .ok (.spiSr8 0xA5)) ∧
  (encode (.spiSr16 0x1234) = 0x1234000B ∧ decode .spie 0x1234000B = .ok (.spiSr16 0x1234)) ∧
  (encode (.spiBurst 0x04 3) = 0x0304000C ∧ decode .spie 0x0304000C = .ok (.spiBurst 0x04 3)) ∧
  (∀ e, decode e 0x00000000 = .error .opcode) ∧
  decode .i2ce 0x00000009 = .error .opcode ∧
  decode .i2ce 0x00000011 = .error .reservedBits ∧
  decode .i2ce 0x0200F602 = .error .reservedBits ∧
  decode .i2ce 0x00007602 = .error (.operandRange .countZero) ∧
  decode .i2ce 0xFF007603 = .error (.operandRange .countAboveNbytesMax) ∧
  decode .spie 0x01A5000A = .error .reservedBits ∧
  decode .spie 0x0004000C = .error (.operandRange .countZero)

/-- 30_encoding R94: which words a CMD write at an engine with BUSY = 0 rejects, by which of the three checks, and that a
rejection sets STATUS.REJ and changes nothing else. -/
def Obligations.MalformedWordsAreRejected : Prop :=
  ∀ (e : EngineId) (w : Word) (s : State),
    (s.engine e).status.busy = false → (s.engine e).faults.cmdWhileBusy = false →
    (decode e w = .error .opcode ↔ opField w ∉ engineOpcodes e) ∧
    (decode e w = .error .reservedBits ↔ opField w ∈ engineOpcodes e ∧ w &&& zBits (opField w) ≠ 0) ∧
    ((∃ why, decode e w = .error (.operandRange why)) ↔
      opField w ∈ engineOpcodes e ∧ w &&& zBits (opField w) = 0 ∧ outOfRange (opField w) (nField w) = true) ∧
    (opField w ∉ engineOpcodes e ∨ w &&& zBits (opField w) ≠ 0 ∨ outOfRange (opField w) (nField w) = true →
      memWrite e 0x000 .four w s =
        .next (s.setEngine e { s.engine e with status := { (s.engine e).status with rej := true } }))

/-! ### Steps and acceptance (40_sequencer R110, R111) -/

/-- 40_sequencer R110, 20_memory R83: where the host's next access writes a word that decodes to `i` to the CMD register
of an idle engine, the step is exec of `i`; the access and the turn are taken from their lists (the model's, logs 3, 5). -/
def Obligations.CommandWriteStepRunsDecodedCommand : Prop :=
  ∀ (s : State) (e : EngineId) (w : Word) (i : Instr) (turns : List Agent) (ops : List HostOp),
    s.turns = .host :: turns → s.hostOps = .write e 0x000 .four w :: ops →
    (s.engine e).status.busy = false → (s.engine e).faults.cmdWhileBusy = false → decode e w = .ok i →
    step s = exec i { s with turns := turns, hostOps := ops }

/-- 40_sequencer R111, 10_state R24: a sequencer's turn is exec of the command in its latches where BUSY = 1, and changes
nothing where BUSY = 0. The list of turns is the model's (log 3). -/
def Obligations.SequencerStepsIffBusy : Prop :=
  ∀ (s : State) (e : EngineId) (turns : List Agent),
    s.turns = .sequencer e :: turns → (s.engine e).faults.cmdWhileBusy = false →
    ((s.engine e).status.busy = true → ∀ i, runningCommand e (s.engine e).latch = some i →
      step s = exec i { s with turns := turns }) ∧
    ((s.engine e).status.busy = false → step s = .next { s with turns := turns })

/-- 40_sequencer R110, 30_encoding R95, R98: a well-formed command's word, placed for the next step, is run by that step at
the engine it belongs to. How it is placed is the model's choice (log 5). -/
def Obligations.PlacedWordIsTheNextCommand : Prop :=
  ∀ (s : State) (i : Instr), i.wellFormed = true → (s.engine i.engine).Idle →
    (s.engine i.engine).faults.cmdWhileBusy = false →
    step (s.withFetchWord 32 (encode i).toNat) = exec i s

/-- 40_sequencer R110 case 3, 30_encoding R93: an idle engine accepts a well-formed command. CMD, the latches, REJ, BUSY,
mpc and (where the first label is an AWAIT) the budget are written, a transaction while INIT = 0 records NotInitialized,
and nothing else changes but the model's own list of contested bytes, which empties (log 12). -/
def Obligations.IdleEngineAcceptsCommand : Prop :=
  (∀ (i : Instr) (s : State), i.wellFormed = true → (s.engine i.engine).Idle →
    exec i s = .next (s.setEngine i.engine
      (let x := s.engine i.engine
       { x with
         cmd := encode i
         latch := latchOperands i x.latch
         status := { x.status with rej := false, busy := true }
         mpc := (firstRow i).1
         budget := loadedBudget (firstRow i).2 x.budget
         contested := []
         faults :=
           if i.isTransaction = true ∧ x.status.init = false then { x.faults with notInitialized := true }
           else x.faults }))) ∧
  ∀ (l : Latches) (dev : BitVec 7) (reg n : BitVec 8) (data : BitVec 16),
    latchOperands .i2cInit l = { l with op := 0x1 } ∧
    latchOperands (.i2cRead dev reg n) l = ⟨0x2, dev, reg, n, l.data⟩ ∧
    latchOperands (.i2cWrite dev reg n) l = ⟨0x3, dev, reg, n, l.data⟩ ∧
    latchOperands .spiInit l = { l with op := 0x9 } ∧
    latchOperands (.spiSr8 reg) l = { l with op := 0xA, data := reg.setWidth 16 } ∧
    latchOperands (.spiSr16 data) l = { l with op := 0xB, data := data } ∧
    latchOperands (.spiBurst reg n) l = ⟨0xC, l.dev, reg, n, l.data⟩

/-- 60_exceptions R230, 40_sequencer R110 case 1: a CMD write while BUSY = 1 records CmdWhileBusy, takes nothing from the
word, and leaves the other engine alone. That REJ stays is the model's reading of 10_state R26 (log 10). -/
def Obligations.CommandWriteWhileBusyFaults : Prop :=
  ∀ (s : State) (e : EngineId) (w : Word),
    (s.engine e).status.busy = true → (s.engine e).faults.cmdWhileBusy = false →
    ∃ t, memWrite e 0x000 .four w s = .next t ∧
      (t.engine e).faults = { (s.engine e).faults with cmdWhileBusy := true } ∧
      (t.engine e).status.rej = (s.engine e).status.rej ∧
      (∀ e', e' ≠ e → t.engine e' = s.engine e') ∧
      ∀ w', memWrite e 0x000 .four w' s = .next t

/-! ### The micro-programs (41_i2c R140-R142, 42_spi R190-R193) -/

/-- 41_i2c R140: every row of I2C_INIT's micro-program. -/
def Obligations.I2cInitRunsItsMicroProgram : Prop :=
  EmitsAt .i2cInit .in0 (fun _ => .i2cClkSel Config.i2cClkSrc) .in1 none (phaseSet .completion) ∧
  EmitsAt .i2cInit .in1 (fun _ => .i2cPe false) .in2 none nothingElse ∧
  EmitsAt .i2cInit .in2
    (fun _ => .i2cTiming Config.i2cPresc Config.i2cScldel Config.i2cSdadel Config.i2cSclh Config.i2cScll)
    .in3 none nothingElse ∧
  EmitsAt .i2cInit .in3 (fun _ => .i2cPe true) .in4 none nothingElse ∧
  FinishesAt .i2cInit .in4 successResult (fun x => { x with status := { x.status with init := true } })

/-- 41_i2c R141: every row of I2C_READ's micro-program, with its FAIL row. -/
def Obligations.I2cReadRunsItsMicroProgram : Prop :=
  ∀ (dev : BitVec 7) (reg n : BitVec 8),
    let i : Instr := .i2cRead dev reg n
    EmitsAt i .rd0 (fun x => .i2cCr2 (x.latch.dev.setWidth 10 <<< 1) false 1 false true) .rd1 (some .s1)
      (phaseSet .addressOrCommand) ∧
    AwaitsAt i .rd1 (.i2cPoll .txis) .addressPhaseTimeout .s1 (fun _ => 0) .rd2 .rdFail none nothingElse ∧
    EmitsAt i .rd2 (fun x => .i2cTx x.latch.reg) .rd3 (some .s2) nothingElse ∧
    AwaitsAt i .rd3 (.i2cPoll .tc) .addressPhaseTimeout .s2 (fun _ => 0) .rd4 .rdFail none nothingElse ∧
    EmitsAt i .rd4 (fun x => .i2cCr2 (x.latch.dev.setWidth 10 <<< 1) true x.latch.n false true) .rd5 (some .s3)
      (fun x => { phaseSet .data x with idx := 0 }) ∧
    AwaitsAt i .rd5 (.i2cPoll .rxne) .dataPhaseTimeout .s3 (fun x => x.latch.n - x.idx.setWidth 8) .rd6 .rdFail none
      nothingElse ∧
    StoresAt i .rd6 Event.i2cRx .rd5 .s3 .rd7 ∧
    EmitsAt i .rd7 (fun _ => .i2cStop) .rd8 (some .s4) (phaseSet .completion) ∧
    AwaitsAt i .rd8 (.i2cPoll .stopf) .stopPhaseTimeout .s4 (fun _ => 0) .rd9 .rdFail none nothingElse ∧
    EmitsAt i .rd9 (fun _ => .i2cClrStopf) .rd10 none nothingElse ∧
    FinishesAt i .rd10 successResult nothingElse ∧
    FinishesAt i .rdFail failedResult nothingElse

/-- 41_i2c R142: every row of I2C_WRITE's micro-program, with its FAIL row. WR4 is stated where no byte is contested; a
byte the host wrote while BUSY = 1 may be sent either way (60_exceptions R232). -/
def Obligations.I2cWriteRunsItsMicroProgram : Prop :=
  ∀ (dev : BitVec 7) (reg n : BitVec 8),
    let i : Instr := .i2cWrite dev reg n
    EmitsAt i .wr0 (fun x => .i2cCr2 (x.latch.dev.setWidth 10 <<< 1) false (x.latch.n + 1) true true) .wr1 (some .s5)
      (phaseSet .addressOrCommand) ∧
    AwaitsAt i .wr1 (.i2cPoll .txis) .addressPhaseTimeout .s5 (fun _ => 0) .wr2 .wrFail none nothingElse ∧
    EmitsAt i .wr2 (fun x => .i2cTx x.latch.reg) .wr3 (some .s6) (fun x => { x with idx := 0 }) ∧
    AwaitsAt i .wr3 (.i2cPoll .txis) .dataPhaseTimeout .s6 (fun x => x.latch.n - x.idx.setWidth 8) .wr4 .wrFail none
      (phaseSet .data) ∧
    (∀ s : State, s.i2c.FaultFree → s.i2c.contested = [] → s.i2c.mpc = .wr4 →
      s.i2c.idx.toNat < s.i2c.latch.n.toNat →
      exec i s = .next
        (let b := s.i2c.bufByte .i2ce s.i2c.idx.toNat
         let more := s.i2c.idx.toNat + 1 < s.i2c.latch.n.toNat
         { s with
           i2cPer := { s.i2cPer with txdata := b }
           i2c :=
             { s.i2c with
               trace := s.i2c.trace ++ [.i2cTx b]
               idx := s.i2c.idx + 1#9
               mpc := if more then .wr3 else .wr5
               budget := Config.timeoutBudget (if more then .s6 else .s7) } })) ∧
    AwaitsAt i .wr5 (.i2cPoll .stopf) .stopPhaseTimeout .s7 (fun _ => 0) .wr6 .wrFail none (phaseSet .completion) ∧
    EmitsAt i .wr6 (fun _ => .i2cClrStopf) .wr7 none nothingElse ∧
    FinishesAt i .wr7 successResult nothingElse ∧
    FinishesAt i .wrFail failedResult nothingElse

/-- 42_spi R190: every row of SPI_INIT's micro-program. -/
def Obligations.SpiInitRunsItsMicroProgram : Prop :=
  EmitsAt .spiInit .si0 (fun _ => .spiSpe false) .si1 none (phaseSet .completion) ∧
  EmitsAt .spiInit .si1 (fun _ => .spiCfg Config.spiBr) .si2 none nothingElse ∧
  EmitsAt .spiInit .si2 (fun _ => .csHigh) .si3 none (fun x => { x with status := { x.status with csdrv := false } }) ∧
  EmitsAt .spiInit .si3 (fun _ => .spiSpe true) .si4 none nothingElse ∧
  FinishesAt .spiInit .si4 successResult (fun x => { x with status := { x.status with init := true } })

/-- 42_spi R191: every row of SPI_SR8's micro-program, with its FAIL row. -/
def Obligations.SpiSr8RunsItsMicroProgram : Prop :=
  ∀ data : BitVec 8,
    let i : Instr := .spiSr8 data
    AwaitsAt i .x0 (.spiPoll .txe) .transmitTimeout .s8 (fun _ => 0) .x1 .xFail none (phaseSet .addressOrCommand) ∧
    EmitsAt i .x1 (fun x => .spiTx8 (x.latch.data.extractLsb' 0 8)) .x2 (some .s9) nothingElse ∧
    AwaitsAt i .x2 (.spiPoll .rxne) .receiveTimeout .s9 (fun _ => 0) .x3 .xFail none (phaseSet .data) ∧
    ReceivesAt i .x3 (fun v => (v.setWidth 8).setWidth 16) (fun t => .spiRx8 (t.setWidth 8)) .x4 none nothingElse ∧
    FinishesAt i .x4 (fun x => ⟨.success, none, 0, (x.tmp.extractLsb' 0 8).setWidth 16⟩) (phaseSet .completion) ∧
    FinishesFailedExchangeAt i .xFail

/-- 42_spi R192: every row of SPI_SR16's micro-program, with its FAIL row. -/
def Obligations.SpiSr16RunsItsMicroProgram : Prop :=
  ∀ data : BitVec 16,
    let i : Instr := .spiSr16 data
    AwaitsAt i .y0 (.spiPoll .txe) .transmitTimeout .s8 (fun _ => 0) .y1 .yFail none (phaseSet .addressOrCommand) ∧
    EmitsAt i .y1 (fun x => .spiTx16 x.latch.data) .y2 (some .s9) nothingElse ∧
    AwaitsAt i .y2 (.spiPoll .rxne) .receiveTimeout .s9 (fun _ => 0) .y3 .yFail none (phaseSet .data) ∧
    ReceivesAt i .y3 (fun v => v.setWidth 16) .spiRx16 .y4 none nothingElse ∧
    FinishesAt i .y4 (fun x => ⟨.success, none, 0, x.tmp⟩) (phaseSet .completion) ∧
    FinishesFailedExchangeAt i .yFail

/-- 42_spi R193: every row of SPI_BURST's micro-program, with its failure path BF0, BF1. -/
def Obligations.SpiBurstRunsItsMicroProgram : Prop :=
  ∀ reg n : BitVec 8,
    let i : Instr := .spiBurst reg n
    let keepByte := fun v : BitVec 32 => (v.setWidth 8).setWidth 16
    let rx := fun t : BitVec 16 => Event.spiRx8 (t.setWidth 8)
    let left := fun x : Engine => x.latch.n - x.idx.setWidth 8
    EmitsAt i .b0 (fun _ => .csLow) .b1 (some .s10)
      (fun x => { x with status := { x.status with phase := .addressOrCommand, csdrv := true } }) ∧
    AwaitsAt i .b1 (.spiPoll .txe) .transmitTimeout .s10 (fun _ => 0) .b2 .bf0 none nothingElse ∧
    EmitsAt i .b2 (fun x => .spiTx8 (x.latch.reg ||| 0x80)) .b3 (some .s11) nothingElse ∧
    AwaitsAt i .b3 (.spiPoll .rxne) .receiveTimeout .s11 (fun _ => 0) .b4 .bf0 none nothingElse ∧
    ReceivesAt i .b4 keepByte rx .b5 (some .s12) nothingElse ∧
    AwaitsAt i .b5 (.spiPoll .txe) .transmitTimeout .s12 (fun _ => 0) .b6 .bf0 none nothingElse ∧
    EmitsAt i .b6 (fun _ => .spiTx8 Config.spiDummy) .b7 (some .s13) nothingElse ∧
    AwaitsAt i .b7 (.spiPoll .rxne) .receiveTimeout .s13 (fun _ => 0) .b8 .bf0 none nothingElse ∧
    ReceivesAt i .b8 keepByte rx .b9 (some .s14) nothingElse ∧
    AwaitsAt i .b9 (.spiPoll .txe) .transmitTimeout .s14 (fun _ => 0) .b10 .bf0 none nothingElse ∧
    EmitsAt i .b10 (fun _ => .spiTx8 Config.spiDummy) .b11 (some .s15) nothingElse ∧
    AwaitsAt i .b11 (.spiPoll .rxne) .receiveTimeout .s15 (fun _ => 0) .b12 .bf0 none nothingElse ∧
    ReceivesAt i .b12 keepByte rx .b13 (some .s16) (fun x => { x with idx := 0 }) ∧
    AwaitsAt i .b13 (.spiPoll .txe) .transmitTimeout .s16 left .b14 .bf0 none (phaseSet .data) ∧
    EmitsAt i .b14 (fun _ => .spiTx8 Config.spiDummy) .b15 (some .s17) nothingElse ∧
    AwaitsAt i .b15 (.spiPoll .rxne) .receiveTimeout .s17 left .b16 .bf0 none nothingElse ∧
    StoresAt i .b16 Event.spiRx8 .b13 .s16 .b17 ∧
    EmitsAt i .b17 (fun _ => .csHigh) .b18 none
      (fun x => { x with status := { x.status with phase := .completion, csdrv := false } }) ∧
    FinishesAt i .b18 successResult nothingElse ∧
    EmitsAt i .bf0 (fun _ => .csHigh) .bf1 none (fun x => { x with status := { x.status with csdrv := false } }) ∧
    FinishesAt i .bf1 failedResult nothingElse

/-- 40_sequencer R113: an AWAIT entered with budget B ends at its success label after the poll that returned 1, or at its
failure label after B polls that all returned 0 with F.site and F.oc recorded, and until then stays; so it runs 1 to B
steps, one poll each. -/
def Obligations.WaitEndsWithinItsBudget : Prop :=
  ∀ (s : State) (e : EngineId) (site : Site) (row : WaitRow) (rest : List Bool),
    EngineInv e (s.engine e) → (s.engine e).FaultFree →
    awaitSite (s.engine e).mpc = some site → waitRow (s.engine e).mpc = some row →
    let budget := (s.engine e).budget.toNat
    (∀ j, j < budget → (s.engine e).env.flags = List.replicate j false ++ rest →
      ∃ t, sequencerRun e j s = .next t ∧ (t.engine e).mpc = (s.engine e).mpc ∧
        newEvents e s t = List.replicate j (row.poll false)) ∧
    (∀ j, j < budget → (s.engine e).env.flags = List.replicate j false ++ true :: rest →
      ∃ t, sequencerRun e (j + 1) s = .next t ∧ (t.engine e).mpc = row.next ∧
        newEvents e s t = List.replicate j (row.poll false) ++ [row.poll true]) ∧
    ((s.engine e).env.flags = List.replicate budget false ++ rest →
      ∃ t, sequencerRun e budget s = .next t ∧ (t.engine e).mpc = row.failLabel ∧
        newEvents e s t = List.replicate budget (row.poll false) ∧
        (t.engine e).fail.site = some site ∧ (t.engine e).fail.oc = siteOutcome site)

/-! ### The host's view (10_state R22-R31, 20_memory R70-R72) -/

/-- 10_state R23, R28, R31, 60_exceptions R220, R222: the STATUS and RESULT words at offsets 0x004 and 0x008, field by
field; writes to them are ignored, and reading them changes nothing but what the host holds. -/
def Obligations.StatusAndResultWords : Prop :=
  ∀ (e : EngineId) (s : State) (v : BitVec 32), (s.engine e).faults.cmdWhileBusy = false →
    (∃ w : BitVec 32, memRead e 0x004 .four s = { s with hostRead := w } ∧
      w.getLsbD 0 = (s.engine e).status.busy ∧ w.getLsbD 1 = (s.engine e).status.valid ∧
      w.getLsbD 2 = (s.engine e).status.rej ∧ w.getLsbD 3 = (s.engine e).status.init ∧
      w.extractLsb' 4 3 =
        (match (s.engine e).status.phase with
         | .idle => 0#3 | .addressOrCommand => 1#3 | .data => 2#3 | .completion => 3#3) ∧
      w.getLsbD 7 = (s.engine e).status.csdrv ∧ w.extractLsb' 8 24 = 0 ∧
      memWrite e 0x004 .four v s = .next s) ∧
    (∃ w : BitVec 32, memRead e 0x008 .four s = { s with hostRead := w } ∧
      w.extractLsb' 0 3 =
        (match (s.engine e).result.outcome with
         | .success => 0#3 | .addressPhaseTimeout => 1#3 | .dataPhaseTimeout => 2#3
         | .stopPhaseTimeout => 3#3 | .transmitTimeout => 4#3 | .receiveTimeout => 5#3) ∧
      w.extractLsb' 3 5 =
        (match (s.engine e).result.failsite with
         | none => 0#5
         | some .s1 => 1#5 | some .s2 => 2#5 | some .s3 => 3#5 | some .s4 => 4#5 | some .s5 => 5#5 | some .s6 => 6#5
         | some .s7 => 7#5 | some .s8 => 8#5 | some .s9 => 9#5 | some .s10 => 10#5 | some .s11 => 11#5
         | some .s12 => 12#5 | some .s13 => 13#5 | some .s14 => 14#5 | some .s15 => 15#5 | some .s16 => 16#5
         | some .s17 => 17#5) ∧
      w.extractLsb' 8 8 = (s.engine e).result.residual ∧ w.extractLsb' 16 16 = (s.engine e).result.rdata ∧
      memWrite e 0x008 .four v s = .next s)

/-- 10_state R22: CMD at offset 0x000 reads the last accepted word; a rejected word is not stored; it is 0 at reset; and
within the spec no step but an acceptance or a reset changes it. -/
def Obligations.CmdReadsLastAcceptedWord : Prop :=
  State.reset.i2c.cmd = 0x00000000 ∧ State.reset.spi.cmd = 0x00000000 ∧
  ∀ (e : EngineId) (s : State), (s.engine e).faults.cmdWhileBusy = false →
    memRead e 0x000 .four s = { s with hostRead := (s.engine e).cmd } ∧
    ((s.engine e).Idle → ∀ w : Word,
      (∀ i, decode e w = .ok i → ∃ t, memWrite e 0x000 .four w s = .next t ∧ (t.engine e).cmd = w) ∧
      (∀ r, decode e w = .error r → ∃ t, memWrite e 0x000 .four w s = .next t ∧ (t.engine e).cmd = (s.engine e).cmd)) ∧
    (Inv s → ∀ t, step s = .next t → (t.engine e).faults.cmdWhileBusy = false →
      (t.engine e).cmd = (s.engine e).cmd ∨ (s.hostOps.head? = some .reset ∧ (t.engine e).cmd = 0x00000000) ∨
      ∃ w i, s.hostOps.head? = some (.write e 0x000 .four w) ∧ (s.engine e).status.busy = false ∧
        decode e w = .ok i ∧ (t.engine e).cmd = w)

/-- 10_state R24, 40_sequencer R116: within the spec BUSY falls only in the engine's own FINISH step, which sets VALID;
or by reset. -/
def Obligations.BusyClearedOnlyByFinish : Prop :=
  ∀ (s t : State) (e : EngineId), Inv s → step s = .next t → (t.engine e).faults.cmdWhileBusy = false →
    s.hostOps.head? ≠ some .reset → (s.engine e).status.busy = true → (t.engine e).status.busy = false →
    finishesAt (s.engine e).mpc = true ∧ (t.engine e).status.valid = true ∧ (t.engine e).mpc = .idle

/-- 10_state R25, R27: VALID and INIT, once set, are cleared by nothing but reset (within the spec). -/
def Obligations.ValidAndInitPersist : Prop :=
  ∀ (s t : State) (e : EngineId), step s = .next t → (t.engine e).faults.cmdWhileBusy = false →
    s.hostOps.head? ≠ some .reset →
    ((s.engine e).status.valid = true → (t.engine e).status.valid = true) ∧
    ((s.engine e).status.init = true → (t.engine e).status.init = true)

/-- 20_memory R72: BUF is little-endian in the host's view, for writes and for reads of 1, 2 and 4 bytes, and a narrow
write of a 32-bit register changes no byte lane (it is a BadAccess). -/
def Obligations.BufIsLittleEndian : Prop :=
  ∀ (e : EngineId) (off : BitVec 9) (size : AccessSize) (v : BitVec 32) (s : State),
    (s.engine e).faults.cmdWhileBusy = false →
    (0x100 ≤ off.toNat → off.toNat % size.bytes = 0 → (s.engine e).status.busy = false →
      let k := off.toNat - 0x100
      (∃ t, memWrite e off size v s = .next t ∧
        (∀ j, j < size.bytes → (t.engine e).bufByte e (k + j) = v.extractLsb' (8 * j) 8) ∧
        (∀ j, j < k ∨ k + size.bytes ≤ j → (t.engine e).bufByte e j = (s.engine e).bufByte e j) ∧
        t = s.setEngine e { s.engine e with buf := (t.engine e).buf }) ∧
      (∃ w : BitVec 32, memRead e off size s = { s with hostRead := w } ∧
        ∀ j, j < 4 →
          w.extractLsb' (8 * j) 8 = if j < size.bytes then (s.engine e).bufByte e (k + j) else 0)) ∧
    (off.toNat < 0x00C → size ≠ .four →
      memWrite e off size v s =
        .next (s.setEngine e { s.engine e with faults := { (s.engine e).faults with badAccess := true } }))

/-- 20_memory R71, R70: the illegal widths and alignments raise BadAccess and have no other effect (a read returns a draw of
the access's width, log 6); an access to the reserved offsets, of any size and alignment, reads 0 and ignores writes; no
other access raises BadAccess. An access that runs past the end of its region (one at 0x009 .. 0x00B or 0x0FD .. 0x0FF) is
placed by its first offset: the model's choice, log 18. -/
def Obligations.OnlyIllegalAccessesAreBadAccess : Prop :=
  ∀ (e : EngineId) (off : BitVec 9) (size : AccessSize) (v : BitVec 32) (s : State),
    (s.engine e).faults.cmdWhileBusy = false →
    let illegal :=
      (off.toNat < 0x00C ∧ ¬ (size = .four ∧ off.toNat % 4 = 0)) ∨
      (0x100 ≤ off.toNat ∧ off.toNat % size.bytes ≠ 0)
    (illegal →
      let x := s.engine e
      let faults : FaultSet := { x.faults with badAccess := true }
      memWrite e off size v s = .next (s.setEngine e { x with faults := faults }) ∧
      ∃ w : BitVec 32,
        memRead e off size s =
          { s.setEngine e { x with faults := faults, env := (x.env.drawValue e).2 } with hostRead := w } ∧
        ∀ j, j < 4 →
          w.extractLsb' (8 * j) 8 = if j < size.bytes then (x.env.drawValue e).1.extractLsb' (8 * j) 8 else 0) ∧
    (0x00C ≤ off.toNat → off.toNat < 0x100 →
      memWrite e off size v s = .next s ∧ memRead e off size s = { s with hostRead := 0 }) ∧
    (¬ illegal →
      ((memRead e off size s).engine e).faults.badAccess = (s.engine e).faults.badAccess ∧
      ∀ t, memWrite e off size v s = .next t →
        (t.engine e).faults.badAccess = (s.engine e).faults.badAccess)

/-! ### Host faults (60_exceptions R230-R236) -/

/-- 60_exceptions R232: a BUF access while BUSY = 1 records BufWhileBusy; a read returns a draw (log 6) and changes no byte; a
write lands whole or not at all (how the model holds the value that did not land: log 12). -/
def Obligations.BufAccessWhileBusyFaults : Prop :=
  ∀ (e : EngineId) (off : BitVec 9) (size : AccessSize) (v : BitVec 32) (s : State),
    (s.engine e).faults.cmdWhileBusy = false → (s.engine e).status.busy = true →
    0x100 ≤ off.toNat → off.toNat % size.bytes = 0 →
    let k := off.toNat - 0x100
    let x := s.engine e
    let faults : FaultSet := { x.faults with bufWhileBusy := true }
    (∃ w : BitVec 32,
      memRead e off size s =
        { s.setEngine e { x with faults := faults, env := (x.env.drawValue e).2 } with hostRead := w } ∧
      ∀ j, j < 4 →
        w.extractLsb' (8 * j) 8 = if j < size.bytes then (x.env.drawValue e).1.extractLsb' (8 * j) 8 else 0) ∧
    ∃ t, memWrite e off size v s = .next t ∧
      t = s.setEngine e { x with
        faults := faults, env := (t.engine e).env, buf := (t.engine e).buf, contested := (t.engine e).contested } ∧
      ((∀ j, (t.engine e).bufByte e j = x.bufByte e j) ∨
       ((∀ j, j < size.bytes → (t.engine e).bufByte e (k + j) = v.extractLsb' (8 * j) 8) ∧
        ∀ j, j < k ∨ k + size.bytes ≤ j → (t.engine e).bufByte e j = x.bufByte e j))

/-- 60_exceptions R233: a host drive of CS while STATUS.CSDRV = 1 records CsContention and makes the level Unknown, which
a step keeps until the engine's next CS event; with CSDRV = 0 the host sets the level. -/
def Obligations.CsContentionMakesLevelUnknown : Prop :=
  (∀ (s : State) (high : Bool), s.spi.faults.cmdWhileBusy = false →
    (s.spi.status.csdrv = true →
      hostAction (.driveCs high) s = .next { s with
        cs := .unknown, spi := { s.spi with faults := { s.spi.faults with csContention := true } } }) ∧
    (s.spi.status.csdrv = false →
      hostAction (.driveCs high) s = .next { s with cs := if high = true then .high else .low })) ∧
  (∀ (i : Instr) (s t : State), exec i s = .next t → csEvents (newEvents .spie s t) = [] → t.cs = s.cs) ∧
  (∀ (i : Instr) (s t : State), exec i s = .next t →
    (newEvents .spie s t = [.csHigh] → t.cs = .high) ∧ (newEvents .spie s t = [.csLow] → t.cs = .low))

/-- 10_state R39, 60_exceptions R235: no step removes a recorded host fault. -/
def Obligations.HostFaultsAreSticky : Prop :=
  ∀ (s t : State) (e : EngineId) (k : HostFaultKind),
    step s = .next t → (s.engine e).faults.has k = true → (t.engine e).faults.has k = true

/-- 60_exceptions R236, 40_sequencer R110: a sequencer's own steps record no host fault, and one host access records at
most one kind. -/
def Obligations.OneAccessRecordsAtMostOneFault : Prop :=
  (∀ (s t : State) (e e' : EngineId), EngineInv e (s.engine e) → sequencerTurn e s = .next t →
    (t.engine e').faults = (s.engine e').faults) ∧
  ∀ (s t : State) (op : HostOp) (e : EngineId), hostAction op s = .next t →
    (t.engine e).faults = (s.engine e).faults ∨ ∃ k, (t.engine e).faults = (s.engine e).faults.record k

/-! ### Whole-machine rules -/

/-- 10_state R41, 40_sequencer R111: a sequencer step appends at most one event to its own trace; a host action other
than reset appends none (within the spec). -/
def Obligations.TraceGrowsByAtMostOneEvent : Prop :=
  (∀ (s t : State) (e : EngineId), (s.engine e).faults.cmdWhileBusy = false → sequencerTurn e s = .next t →
    ∃ evs : List Event, evs.length ≤ 1 ∧ (t.engine e).trace = (s.engine e).trace ++ evs) ∧
  ∀ (s t : State) (op : HostOp) (e : EngineId), Inv s → op ≠ .reset → hostAction op s = .next t →
    (t.engine e).faults.cmdWhileBusy = false → (t.engine e).trace = (s.engine e).trace

/-- 60_exceptions R240, 20_memory R85, 10_state R20: a sequencer's turn leaves the other engine, its peripheral and (for
I2CE) the CS line alone, and what it does depends on its own engine and peripheral alone. -/
def Obligations.EnginesAreIndependent : Prop :=
  (∀ s t : State, sequencerTurn .i2ce s = .next t →
    t.spi = s.spi ∧ t.spiPer = s.spiPer ∧ t.cs = s.cs ∧
    ∀ s', s'.i2c = s.i2c → s'.i2cPer = s.i2cPer →
      ∃ t', sequencerTurn .i2ce s' = .next t' ∧ t'.i2c = t.i2c ∧ t'.i2cPer = t.i2cPer) ∧
  (∀ s t : State, sequencerTurn .spie s = .next t →
    t.i2c = s.i2c ∧ t.i2cPer = s.i2cPer ∧
    ∀ s', s'.spi = s.spi → s'.spiPer = s.spiPer → s'.cs = s.cs →
      ∃ t', sequencerTurn .spie s' = .next t' ∧ t'.spi = t.spi ∧ t'.spiPer = t.spiPer ∧ t'.cs = t.cs)

/-- The frame of I2C_INIT, I2C_READ and I2C_WRITE (41_i2c R140-R142 "state written", 10_state R30, R58). Two parts of it are
the model's choice: that ISR's flags stay as they are but for the polled one and STOPF's clear (log 31; 10_state R57 and
70_reset R262 let the peripheral change them), and that START, STOP and RXDATA stay as last written or received (log 28). -/
def Obligations.I2cCommandFrame : Prop :=
  ∀ (i : Instr) (s t : State), i.engine = .i2ce → exec i s = .next t →
    t.spi = s.spi ∧ t.spiPer = s.spiPer ∧ t.cs = s.cs ∧ t.hostOps = s.hostOps ∧ t.hostRead = s.hostRead ∧
    t.turns = s.turns ∧ t.tick = s.tick ∧ t.i2c.bufEpoch = s.i2c.bufEpoch ∧
    t.i2c.status.csdrv = s.i2c.status.csdrv ∧
    (∀ k, ¬ (i.opcode = 0x2 ∧ s.i2c.mpc = .rd6 ∧ k = s.i2c.idx.toNat) →
      t.i2c.bufByte .i2ce k = s.i2c.bufByte .i2ce k) ∧
    (s.i2c.mpc ≠ .idle → t.i2c.cmd = s.i2c.cmd ∧ t.i2c.latch = s.i2c.latch ∧ t.i2c.faults = s.i2c.faults ∧
      t.i2c.status.rej = s.i2c.status.rej ∧ t.i2c.contested = s.i2c.contested) ∧
    (finishesAt s.i2c.mpc = false →
      t.i2c.result = s.i2c.result ∧ t.i2c.status.valid = s.i2c.status.valid ∧
      t.i2c.status.init = s.i2c.status.init) ∧
    (i.opcode ≠ 0x1 → t.i2c.status.init = s.i2c.status.init ∧
      t.i2cPer.clksel = s.i2cPer.clksel ∧ t.i2cPer.pe = s.i2cPer.pe ∧ t.i2cPer.presc = s.i2cPer.presc ∧
      t.i2cPer.scldel = s.i2cPer.scldel ∧ t.i2cPer.sdadel = s.i2cPer.sdadel ∧
      t.i2cPer.sclh = s.i2cPer.sclh ∧ t.i2cPer.scll = s.i2cPer.scll ∧
      t.i2cPer.cr1Other = s.i2cPer.cr1Other) ∧
    (i.opcode ≠ 0x2 → t.i2cPer.rxdata = s.i2cPer.rxdata) ∧
    (let r := s.i2cPer.isr
     t.i2cPer.isr = { r with
       txis := t.i2cPer.isr.txis, tc := t.i2cPer.isr.tc, rxne := t.i2cPer.isr.rxne, stopf := t.i2cPer.isr.stopf }) ∧
    (i.opcode = 0x1 → t.i2c.buf = s.i2c.buf ∧ t.i2c.idx = s.i2c.idx ∧ t.i2c.env = s.i2c.env ∧
      t.i2c.tmp = s.i2c.tmp ∧ t.i2c.fail = s.i2c.fail ∧
      t.i2cPer.sadd = s.i2cPer.sadd ∧ t.i2cPer.rdWrn = s.i2cPer.rdWrn ∧ t.i2cPer.nbytes = s.i2cPer.nbytes ∧
      t.i2cPer.autoend = s.i2cPer.autoend ∧ t.i2cPer.start = s.i2cPer.start ∧ t.i2cPer.stop = s.i2cPer.stop ∧
      t.i2cPer.add10 = s.i2cPer.add10 ∧ t.i2cPer.reload = s.i2cPer.reload ∧
      t.i2cPer.nackReq = s.i2cPer.nackReq ∧ t.i2cPer.pecByte = s.i2cPer.pecByte ∧
      t.i2cPer.head10r = s.i2cPer.head10r ∧ t.i2cPer.isr = s.i2cPer.isr ∧
      t.i2cPer.txdata = s.i2cPer.txdata ∧ t.i2cPer.rxdata = s.i2cPer.rxdata)

/-- The frame of SPI_INIT, SPI_SR8, SPI_SR16 and SPI_BURST (42_spi R190-R193 "state written", 10_state R30, R58). Two parts of
it are the model's choice: that SR's flags stay as they are but for the polled one (log 31; 10_state R57 gives them to the
environment), and that both sides of DR keep the value last written and last received (log 28). -/
def Obligations.SpiCommandFrame : Prop :=
  ∀ (i : Instr) (s t : State), i.engine = .spie → exec i s = .next t →
    t.i2c = s.i2c ∧ t.i2cPer = s.i2cPer ∧ t.hostOps = s.hostOps ∧ t.hostRead = s.hostRead ∧
    t.turns = s.turns ∧ t.tick = s.tick ∧ t.spi.bufEpoch = s.spi.bufEpoch ∧
    (∀ k, ¬ (i.opcode = 0xC ∧ s.spi.mpc = .b16 ∧ k = s.spi.idx.toNat) →
      t.spi.bufByte .spie k = s.spi.bufByte .spie k) ∧
    (¬ (i.opcode = 0x9 ∧ s.spi.mpc = .si2) ∧
       ¬ (i.opcode = 0xC ∧ (s.spi.mpc = .b0 ∨ s.spi.mpc = .b17 ∨ s.spi.mpc = .bf0)) →
      t.cs = s.cs ∧ t.spi.status.csdrv = s.spi.status.csdrv) ∧
    (s.spi.mpc ≠ .idle → t.spi.cmd = s.spi.cmd ∧ t.spi.latch = s.spi.latch ∧ t.spi.faults = s.spi.faults ∧
      t.spi.status.rej = s.spi.status.rej ∧ t.spi.contested = s.spi.contested) ∧
    (finishesAt s.spi.mpc = false →
      t.spi.result = s.spi.result ∧ t.spi.status.valid = s.spi.status.valid ∧
      t.spi.status.init = s.spi.status.init) ∧
    (i.opcode ≠ 0x9 → t.spi.status.init = s.spi.status.init ∧
      t.spiPer.mstr = s.spiPer.mstr ∧ t.spiPer.ssm = s.spiPer.ssm ∧ t.spiPer.ssi = s.spiPer.ssi ∧
      t.spiPer.br = s.spiPer.br ∧ t.spiPer.cpol = s.spiPer.cpol ∧ t.spiPer.cpha = s.spiPer.cpha ∧
      t.spiPer.lsbfirst = s.spiPer.lsbfirst ∧ t.spiPer.frame = s.spiPer.frame ∧ t.spiPer.spe = s.spiPer.spe ∧
      t.spiPer.cr1Other = s.spiPer.cr1Other) ∧
    t.spiPer.cr2Other = s.spiPer.cr2Other ∧
    (let r := s.spiPer.sr
     t.spiPer.sr = { r with txe := t.spiPer.sr.txe, rxne := t.spiPer.sr.rxne }) ∧
    (i.opcode = 0x9 ∨ i.opcode = 0xC → t.spi.result.rdata = s.spi.result.rdata) ∧
    (i.opcode ≠ 0xC → t.spi.buf = s.spi.buf ∧ t.spi.idx = s.spi.idx) ∧
    (i.opcode = 0x9 → t.spiPer.sr = s.spiPer.sr ∧ t.spi.env = s.spi.env ∧ t.spi.tmp = s.spi.tmp ∧ t.spi.fail = s.spi.fail ∧
      t.spiPer.drTx = s.spiPer.drTx ∧ t.spiPer.drWide = s.spiPer.drWide ∧ t.spiPer.drRx = s.spiPer.drRx)

/-- 10_state R20-R59 as one invariant: a step of any agent keeps it, from every state that has it. -/
def Obligations.StepKeepsInvariant : Prop :=
  ∀ s t : State, Inv s → step s = .next t → Inv t

/-- The reset state has the invariant that every step keeps (10_state R59). -/
def Obligations.ResetHasInvariant : Prop := Inv State.reset

/-- 40_sequencer R111, 10_state R37: from a state with the invariant no step stops; the model's own two faults (log 17) are
out of reach. -/
def Obligations.InvariantStatesStepOn : Prop :=
  ∀ s : State, Inv s → ∃ t, step s = .next t

/-! ### Whole commands -/

/-- 40_sequencer R117: every accepted command ends, within the bound of its row. -/
def Obligations.EveryCommandFinishesWithinBound : Prop :=
  ∀ (i : Instr) (s : State) (b : Nat), (s.engine i.engine).ReadyFor i → i.wellFormed = true →
    (∀ site, (Config.timeoutBudget site).toNat ≤ b) →
    ∃ k t, k ≤ stepBound b i ∧ commandRun i k s = .next t ∧
      (t.engine i.engine).Idle ∧ (t.engine i.engine).status.valid = true

/-- 41_i2c R140, 42_spi R190, 70_reset R253: an INIT command always ends in Success after five steps, with the same
events each time, STATUS = 0x3A where CSDRV was 0, and (for SPI_INIT) the CS line High. -/
def Obligations.InitCommandsEndInSuccess : Prop :=
  (∀ s : State, s.i2c.ReadyFor .i2cInit → s.i2c.status.csdrv = false →
    ∃ t, commandRun .i2cInit 5 s = .next t ∧ t.i2c.Idle ∧ t.i2c.status.word = 0x3A ∧
      t.i2c.result = ⟨.success, none, 0, s.i2c.result.rdata⟩ ∧
      newEvents .i2ce s t =
        [.i2cClkSel Config.i2cClkSrc, .i2cPe false,
         .i2cTiming Config.i2cPresc Config.i2cScldel Config.i2cSdadel Config.i2cSclh Config.i2cScll,
         .i2cPe true]) ∧
  (∀ s : State, s.spi.ReadyFor .spiInit →
    ∃ t, commandRun .spiInit 5 s = .next t ∧ t.spi.Idle ∧ t.spi.status.word = 0x3A ∧ t.cs = .high ∧
      t.spi.result = ⟨.success, none, 0, s.spi.result.rdata⟩ ∧
      newEvents .spie s t = [.spiSpe false, .spiCfg Config.spiBr, .csHigh, .spiSpe true])

/-- 60_exceptions R220-R222: an ended command has Success with no site, or names one of its own waits with that wait's
outcome. -/
def Obligations.FailedCommandNamesItsWait : Prop :=
  ∀ (i : Instr) (s t : State), CommandEnded i s t →
    ((resultOf i t).failsite = none ∧ (resultOf i t).outcome = .success ∧ (resultOf i t).residual = 0) ∨
    ∃ site, site ∈ commandSites i ∧ (resultOf i t).failsite = some site ∧
      (resultOf i t).outcome = siteOutcome site ∧
      (residualSite site = false → (resultOf i t).residual = 0)

/-- 41_i2c R143 (a), 20_memory R73: a Success of I2C_READ has exactly n `I2C_RX` events, and BUF[k] is the value of the
k-th; the other bytes of BUF are unchanged. -/
def Obligations.I2cReadStoresInRequestOrder : Prop :=
  ∀ (dev : BitVec 7) (reg n : BitVec 8) (s t : State), CommandEnded (.i2cRead dev reg n) s t →
    t.i2c.result.outcome = .success →
    (receivedBytes (newEvents .i2ce s t)).length = n.toNat ∧
    (∀ k, k < n.toNat → (receivedBytes (newEvents .i2ce s t))[k]? = some (t.i2c.bufByte .i2ce k)) ∧
    (∀ k, n.toNat ≤ k → t.i2c.bufByte .i2ce k = s.i2c.bufByte .i2ce k)

/-- 41_i2c R137: which BUF bytes a failed I2C_READ has written, with its residual; I2C_WRITE never writes BUF. -/
def Obligations.I2cBufferOnFailure : Prop :=
  (∀ (dev : BitVec 7) (reg n : BitVec 8) (s t : State), CommandEnded (.i2cRead dev reg n) s t →
    let got := receivedBytes (newEvents .i2ce s t)
    (t.i2c.result.outcome = .addressPhaseTimeout → ∀ k, t.i2c.bufByte .i2ce k = s.i2c.bufByte .i2ce k) ∧
    (t.i2c.result.outcome = .dataPhaseTimeout →
      got.length < n.toNat ∧ t.i2c.result.residual.toNat = n.toNat - got.length ∧
      (∀ k, k < got.length → got[k]? = some (t.i2c.bufByte .i2ce k)) ∧
      (∀ k, got.length ≤ k → t.i2c.bufByte .i2ce k = s.i2c.bufByte .i2ce k)) ∧
    (t.i2c.result.outcome = .stopPhaseTimeout →
      got.length = n.toNat ∧ t.i2c.result.residual = 0 ∧
      ∀ k, k < n.toNat → got[k]? = some (t.i2c.bufByte .i2ce k))) ∧
  (∀ (dev : BitVec 7) (reg n : BitVec 8) (s t : State), CommandEnded (.i2cWrite dev reg n) s t →
    ∀ k, t.i2c.bufByte .i2ce k = s.i2c.bufByte .i2ce k)

/-- 41_i2c R143 (b), 20_memory R73: a Success of I2C_WRITE has exactly n + 1 `I2C_TX` events, the register byte first and
then BUF[0 .. n-1] in order, all before the poll of STOPF that returned 1. -/
def Obligations.I2cWriteSendsRegisterThenPayload : Prop :=
  ∀ (dev : BitVec 7) (reg n : BitVec 8) (s t : State), CommandEnded (.i2cWrite dev reg n) s t →
    t.i2c.result.outcome = .success →
    ∃ before, newEvents .i2ce s t = before ++ [.i2cPoll .stopf true, .i2cClrStopf] ∧
      sentBytes before = reg :: (List.range n.toNat).map fun k => s.i2c.bufByte .i2ce k

/-- 41_i2c R135, R143 (c): STOPF is cleared right after the stop wait succeeds, and by no failing command. -/
def Obligations.StopFlagClearedExactlyOnSuccess : Prop :=
  ∀ (i : Instr) (s t : State), i.engine = .i2ce → i.isTransaction = true → CommandEnded i s t →
    (t.i2c.result.outcome = .success →
      ∃ before, newEvents .i2ce s t = before ++ [.i2cPoll .stopf true, .i2cClrStopf] ∧
        Event.i2cClrStopf ∉ before ∧ Event.i2cPoll .stopf true ∉ before) ∧
    (t.i2c.result.outcome ≠ .success →
      Event.i2cClrStopf ∉ newEvents .i2ce s t ∧ Event.i2cPoll .stopf true ∉ newEvents .i2ce s t)

/-- 41_i2c R133, R143 (d), 40_sequencer R118: an ended I2C command has emitted `I2C_STOP` iff it is an I2C_READ whose
payload was complete (Success or StopPhaseTimeout), at most once, and after the n-th `I2C_RX`, the last one; no other
failure path emits it. -/
def Obligations.StopIsIssuedOnlyAfterTheLastByteRead : Prop :=
  (∀ (i : Instr) (s t : State), i.engine = .i2ce → CommandEnded i s t →
    (Event.i2cStop ∈ newEvents .i2ce s t ↔
      (i.opcode = 0x2 ∧ (t.i2c.result.outcome = .success ∨ t.i2c.result.outcome = .stopPhaseTimeout))) ∧
    (newEvents .i2ce s t).count .i2cStop ≤ 1) ∧
  ∀ (dev : BitVec 7) (reg n : BitVec 8) (s t : State) (before rest : List Event),
    CommandEnded (.i2cRead dev reg n) s t → newEvents .i2ce s t = before ++ .i2cStop :: rest →
    (receivedBytes before).length = n.toNat ∧ receivedBytes rest = []

/-- 42_spi R173: every SPI_BURST that ends has emitted exactly one `CS_LOW`, as its first event, and exactly one
`CS_HIGH`, as its last, whatever its outcome; and the line is then High. -/
def Obligations.BurstDeselectsOnEveryExit : Prop :=
  ∀ (reg n : BitVec 8) (s t : State), CommandEnded (.spiBurst reg n) s t →
    (∃ during, newEvents .spie s t = .csLow :: (during ++ [.csHigh]) ∧ csEvents during = []) ∧
    t.cs = .high ∧ t.spi.status.csdrv = false

/-- 42_spi R185, R188, R194 (c): the frames of a successful SPI_BURST on the wire while CS is Low, 3 + n in all; the
bytes received in the first three are discarded, and the others are BUF[0 .. n-1]. -/
def Obligations.BurstFramesOnTheWire : Prop :=
  ∀ (reg n : BitVec 8) (s t : State) (order : SpiByteOrder), CommandEnded (.spiBurst reg n) s t →
    t.spi.result.outcome = .success →
    ∃ during, newEvents .spie s t = .csLow :: (during ++ [.csHigh]) ∧
      (wireFrames order during).length = 3 + n.toNat ∧
      (wireFrames order during).map WireFrame.tx =
        [reg ||| 0x80, Config.spiDummy, Config.spiDummy] ++ List.replicate n.toNat Config.spiDummy ∧
      (∀ k, k < n.toNat →
        ((wireFrames order during)[3 + k]?).bind WireFrame.rx = some (t.spi.bufByte .spie k)) ∧
      (∀ k, n.toNat ≤ k → t.spi.bufByte .spie k = s.spi.bufByte .spie k) ∧
      t.spi.result.rdata = s.spi.result.rdata

/-- 42_spi R189, R193 corner cases: a failed SPI_BURST leaves BUF[0 .. idx-1] written, the rest unchanged, and the
residual N - idx at the payload waits, 0 before them. -/
def Obligations.BurstBufferOnFailure : Prop :=
  ∀ (reg n : BitVec 8) (s t : State), CommandEnded (.spiBurst reg n) s t →
    t.spi.result.outcome ≠ .success →
    let got := (receivedBytes (newEvents .spie s t)).drop 3
    got.length < n.toNat ∧
    (∀ k, k < got.length → got[k]? = some (t.spi.bufByte .spie k)) ∧
    (∀ k, got.length ≤ k → t.spi.bufByte .spie k = s.spi.bufByte .spie k) ∧
    (t.spi.result.failsite = some .s16 ∨ t.spi.result.failsite = some .s17 →
      t.spi.result.residual.toNat = n.toNat - got.length) ∧
    (t.spi.result.failsite ≠ some .s16 → t.spi.result.failsite ≠ some .s17 →
      t.spi.result.residual = 0 ∧ got = [])

/-- 42_spi R191, R192, R194 (a), 10_state R35: a successful SPI_SR8 or SPI_SR16 sent its operand once, read once, and
returns what it read in RDATA; a TransmitTimeout sent nothing; no CS event in any run, BUF untouched. -/
def Obligations.ExchangeReturnsWhatItReceived : Prop :=
  (∀ (data : BitVec 8) (s t : State), CommandEnded (.spiSr8 data) s t →
    let data' := (newEvents .spie s t).filter fun ev => ev matches .spiTx8 _ | .spiRx8 _ | .spiTx16 _ | .spiRx16 _
    csEvents (newEvents .spie s t) = [] ∧ t.spi.buf = s.spi.buf ∧ t.cs = s.cs ∧
    (t.spi.result.outcome = .success →
      ∃ v : Byte, data' = [.spiTx8 data, .spiRx8 v] ∧ t.spi.result.rdata = v.setWidth 16) ∧
    (t.spi.result.outcome = .transmitTimeout → data' = []) ∧
    (t.spi.result.outcome = .receiveTimeout → data' = [.spiTx8 data])) ∧
  (∀ (data : BitVec 16) (s t : State), CommandEnded (.spiSr16 data) s t →
    let data' := (newEvents .spie s t).filter fun ev => ev matches .spiTx8 _ | .spiRx8 _ | .spiTx16 _ | .spiRx16 _
    csEvents (newEvents .spie s t) = [] ∧ t.spi.buf = s.spi.buf ∧ t.cs = s.cs ∧
    (t.spi.result.outcome = .success →
      ∃ v : Half, data' = [.spiTx16 data, .spiRx16 v] ∧ t.spi.result.rdata = v) ∧
    (t.spi.result.outcome = .transmitTimeout → data' = []) ∧
    (t.spi.result.outcome = .receiveTimeout → data' = [.spiTx16 data]))

/-- 42_spi R194 (d), under the optional contract 10_state R55 with an echo device (log 21; with no exchange unread before the
command): a successful exchange returns the value sent. -/
def Obligations.EchoDeviceRoundTrip : Prop :=
  (∀ (data : BitVec 8) (s t : State), CommandEnded (.spiSr8 data) s t →
    spiContract true (newEvents .spie s t) = true → t.spi.result.outcome = .success →
    t.spi.result.rdata = data.setWidth 16) ∧
  (∀ (data : BitVec 16) (s t : State), CommandEnded (.spiSr16 data) s t →
    spiContract true (newEvents .spie s t) = true → t.spi.result.outcome = .success →
    t.spi.result.rdata = data)

/-- 41_i2c R132, row by row, under the optional contract 10_state R48 (log 21): where a NACK of each byte that was sent
surfaces, with STOPF left set by every failing row (70_reset R262). The contract takes every flag as 0 before the command
(the model's choice, log 21). `acks` are the slave's answers to the bytes the master
sends; an earlier wait may still run out first, which the premises on the trace rule out. A NACK of the last payload byte
of I2C_WRITE is not detected: only the stop wait can fail, and with every poll answered 1 the command returns Success. -/
def Obligations.NackSurfacesAtTheNextWait : Prop :=
  (∀ (dev : BitVec 7) (reg n : BitVec 8) (s t : State) (more : List Bool), CommandEnded (.i2cRead dev reg n) s t →
    let trace := newEvents .i2ce s t
    let fails := fun acks outcome site residual =>
      t.i2c.result.outcome = outcome ∧ t.i2c.result.failsite = some site ∧ t.i2c.result.residual = residual ∧
        stopfLeftSet acks trace = true
    (i2cContract (false :: more) trace = true → fails (false :: more) .addressPhaseTimeout .s1 0) ∧
    (i2cContract (true :: false :: more) trace = true → Event.i2cTx reg ∈ trace →
      fails (true :: false :: more) .addressPhaseTimeout .s2 0) ∧
    (i2cContract (true :: true :: false :: more) trace = true →
      Event.i2cCr2 (saddOf dev) true n false true ∈ trace →
      fails (true :: true :: false :: more) .dataPhaseTimeout .s3 n)) ∧
  (∀ (dev : BitVec 7) (reg n : BitVec 8) (s t : State) (more : List Bool), CommandEnded (.i2cWrite dev reg n) s t →
    let trace := newEvents .i2ce s t
    let fails := fun acks outcome site residual =>
      t.i2c.result.outcome = outcome ∧ t.i2c.result.failsite = some site ∧ t.i2c.result.residual.toNat = residual ∧
        stopfLeftSet acks trace = true
    (i2cContract (false :: more) trace = true → fails (false :: more) .addressPhaseTimeout .s5 0) ∧
    (i2cContract (true :: false :: more) trace = true → 1 ≤ (sentBytes trace).length →
      fails (true :: false :: more) .dataPhaseTimeout .s6 n.toNat) ∧
    (∀ k, k + 1 < n.toNat → i2cContract (List.replicate (k + 2) true ++ false :: more) trace = true →
      k + 2 ≤ (sentBytes trace).length →
      fails (List.replicate (k + 2) true ++ false :: more) .dataPhaseTimeout .s6 (n.toNat - k - 1)) ∧
    (i2cContract (List.replicate (n.toNat + 1) true ++ false :: more) trace = true →
      n.toNat + 1 ≤ (sentBytes trace).length →
      t.i2c.result.outcome = .success ∨ fails (List.replicate (n.toNat + 1) true ++ false :: more)
        .stopPhaseTimeout .s7 0)) ∧
  (∀ (dev : BitVec 7) (reg n : BitVec 8) (s : State) (flags more : List Bool),
    s.i2c.ReadyFor (.i2cWrite dev reg n) → n ≠ 0 → n ≠ 255 →
    s.i2c.env.flags = List.replicate (n.toNat + 2) true ++ flags →
    ∃ t, CommandEnded (.i2cWrite dev reg n) s t ∧ t.i2c.result.outcome = .success ∧
      i2cContract (List.replicate (n.toNat + 1) true ++ false :: more) (newEvents .i2ce s t) = true)

/-- 41_i2c R141 with every poll answered 1: I2C_READ ends in Success after 2 n + 9 steps with the bytes the environment
gave, and with exactly the events of its micro-program. -/
def Obligations.I2cReadSucceedsWhenAnswered : Prop :=
  ∀ (dev : BitVec 7) (reg n : BitVec 8) (s : State) (vals more : List (BitVec 32)) (flags : List Bool),
    s.i2c.ReadyFor (.i2cRead dev reg n) → n ≠ 0 → vals.length = n.toNat →
    s.i2c.env.flags = List.replicate (n.toNat + 3) true ++ flags → s.i2c.env.values = vals ++ more →
    ∃ t, commandRun (.i2cRead dev reg n) (2 * n.toNat + 9) s = .next t ∧ t.i2c.Idle ∧
      t.i2c.result = ⟨.success, none, 0, s.i2c.result.rdata⟩ ∧ t.i2c.status.phase = .completion ∧
      (∀ k v, vals[k]? = some v → t.i2c.bufByte .i2ce k = v.setWidth 8) ∧
      newEvents .i2ce s t =
        [.i2cCr2 (saddOf dev) false 1 false true, .i2cPoll .txis true, .i2cTx reg, .i2cPoll .tc true,
         .i2cCr2 (saddOf dev) true n false true] ++
        (vals.flatMap fun v => [.i2cPoll .rxne true, .i2cRx (v.setWidth 8)]) ++
        [.i2cStop, .i2cPoll .stopf true, .i2cClrStopf]

/-- 41_i2c R142 with every poll answered 1: I2C_WRITE ends in Success after 2 n + 6 steps, with exactly the events of its
micro-program. -/
def Obligations.I2cWriteSucceedsWhenAnswered : Prop :=
  ∀ (dev : BitVec 7) (reg n : BitVec 8) (s : State) (flags : List Bool),
    s.i2c.ReadyFor (.i2cWrite dev reg n) → n ≠ 0 → n ≠ 255 →
    s.i2c.env.flags = List.replicate (n.toNat + 2) true ++ flags →
    ∃ t, commandRun (.i2cWrite dev reg n) (2 * n.toNat + 6) s = .next t ∧ t.i2c.Idle ∧
      t.i2c.result = ⟨.success, none, 0, s.i2c.result.rdata⟩ ∧ t.i2c.status.phase = .completion ∧
      newEvents .i2ce s t =
        [.i2cCr2 (saddOf dev) false (n + 1) true true, .i2cPoll .txis true, .i2cTx reg] ++
        ((List.range n.toNat).flatMap fun k =>
          [.i2cPoll .txis true, .i2cTx (s.i2c.bufByte .i2ce k)]) ++
        [.i2cPoll .stopf true, .i2cClrStopf]

/-- 42_spi R191, R192 with both polls answered 1: SPI_SR8 and SPI_SR16 end in Success after five steps, with the value the
environment gave in RDATA and exactly the events of their micro-programs. -/
def Obligations.SpiExchangesSucceedWhenAnswered : Prop :=
  (∀ (data : BitVec 8) (s : State) (v : BitVec 32) (more : List (BitVec 32)) (flags : List Bool),
    s.spi.ReadyFor (.spiSr8 data) → s.spi.env.flags = true :: true :: flags → s.spi.env.values = v :: more →
    ∃ t, commandRun (.spiSr8 data) 5 s = .next t ∧ t.spi.Idle ∧ t.spi.status.phase = .completion ∧ t.cs = s.cs ∧
      t.spi.result = ⟨.success, none, 0, (v.extractLsb' 0 8).setWidth 16⟩ ∧
      newEvents .spie s t =
        [.spiPoll .txe true, .spiTx8 data, .spiPoll .rxne true, .spiRx8 (v.extractLsb' 0 8)]) ∧
  (∀ (data : BitVec 16) (s : State) (v : BitVec 32) (more : List (BitVec 32)) (flags : List Bool),
    s.spi.ReadyFor (.spiSr16 data) → s.spi.env.flags = true :: true :: flags → s.spi.env.values = v :: more →
    ∃ t, commandRun (.spiSr16 data) 5 s = .next t ∧ t.spi.Idle ∧ t.spi.status.phase = .completion ∧ t.cs = s.cs ∧
      t.spi.result = ⟨.success, none, 0, v.extractLsb' 0 16⟩ ∧
      newEvents .spie s t =
        [.spiPoll .txe true, .spiTx16 data, .spiPoll .rxne true, .spiRx16 (v.extractLsb' 0 16)])

/-- 42_spi R193 with every poll answered 1: SPI_BURST ends in Success after 4 n + 15 steps; the first three bytes received
are discarded and the others are BUF[0 .. n-1]. -/
def Obligations.SpiBurstSucceedsWhenAnswered : Prop :=
  ∀ (reg n : BitVec 8) (s : State) (discarded vals more : List (BitVec 32)) (flags : List Bool),
    s.spi.ReadyFor (.spiBurst reg n) → n ≠ 0 → discarded.length = 3 → vals.length = n.toNat →
    s.spi.env.flags = List.replicate (2 * n.toNat + 6) true ++ flags →
    s.spi.env.values = discarded ++ vals ++ more →
    ∃ t, commandRun (.spiBurst reg n) (4 * n.toNat + 15) s = .next t ∧ t.spi.Idle ∧
      t.spi.result = ⟨.success, none, 0, s.spi.result.rdata⟩ ∧ t.spi.status.phase = .completion ∧ t.cs = .high ∧
      (∀ k v, vals[k]? = some v → t.spi.bufByte .spie k = v.setWidth 8) ∧
      receivedBytes (newEvents .spie s t) = (discarded ++ vals).map fun v => v.setWidth 8

/-! ### Derived values, the wire and the reference binding -/

/-- 42_spi R186: the address frame sets bit 7 of reg and changes no other bit. -/
def Obligations.BurstAddressSetsOnlyBit7 : Prop :=
  ∀ reg : BitVec 8, burstAddress reg = reg ||| 0x80 ∧ (burstAddress reg).getLsbD 7 = true ∧
    (∀ k, k < 7 → (burstAddress reg).getLsbD k = reg.getLsbD k) ∧
    (reg.getLsbD 7 = true → burstAddress reg = reg)

/-- 42_spi R181: the formatter's settings after SPI_INIT's configuration event, the frames of an 8-bit and of a 16-bit DR
write, and the assembly of a 16-bit read, under either byte order; a 16-bit exchange leaves FRAME alone. -/
def Obligations.FrameFormatterOrdersBytes : Prop :=
  (∀ (s : State) (br : BitVec 3), formatterSet (s.applyEvent (.spiCfg br)).spiPer = true) ∧
  Config.spi16ByteOrderDefault = .lowFirst ∧
  (∀ (order : SpiByteOrder) (b : Byte), wireFrames order [.spiTx8 b] = [⟨b, none⟩]) ∧
  (∀ w : Half,
    wireFrames .lowFirst [.spiTx16 w] = [⟨w.extractLsb' 0 8, none⟩, ⟨w.extractLsb' 8 8, none⟩] ∧
    wireFrames .highFirst [.spiTx16 w] = [⟨w.extractLsb' 8 8, none⟩, ⟨w.extractLsb' 0 8, none⟩]) ∧
  (∀ (order : SpiByteOrder) (w v : Half), ∃ tx1 tx2 rx1 rx2,
    wireFrames order [.spiTx16 w, .spiRx16 v] = [⟨tx1, some rx1⟩, ⟨tx2, some rx2⟩] ∧
    v = joinWord order rx1 rx2) ∧
  (∀ rx1 rx2 : Byte, joinWord .lowFirst rx1 rx2 = rx2 ++ rx1 ∧ joinWord .highFirst rx1 rx2 = rx1 ++ rx2) ∧
  (∀ (s : State) (w v : Half), ((s.applyEvent (.spiTx16 w)).applyEvent (.spiRx16 v)).spiPer.frame = s.spiPer.frame)

/-- 42_spi R182, 20_memory R74: a frame is sent and sampled most significant bit first (a view beside the machine, log 22). -/
def Obligations.FrameBitsMostSignificantFirst : Prop :=
  ∀ tx : Byte, misoByte (mosiBits tx) = tx ∧ (mosiBits tx).length = 8 ∧
    ∀ k, k < 8 → (mosiBits tx)[k]? = some (tx.getLsbD (7 - k))

/-- 10_state R45, R46, R52, R53 (the reference binding, PRESUMED, logs 9, 20): the register accesses of each writing event
turn the words the peripheral's fields spelt into the words they spell after it, at every register; each named field stands
at its place in them, and the binding is sound as any binding of REGMAP is asked to be; a poll and a read
return the bit and the byte of the register they name; and the words at reset. -/
def Obligations.ReferenceAccessesMatchFields : Prop :=
  let m := RegMap.reference
  m.Sound ∧
  (∀ (s : State) (ev : Event),
    (∃ b, ev = .i2cPe b) ∨ (∃ p cd dd h l, ev = .i2cTiming p cd dd h l) ∨ (∃ a r n ae st, ev = .i2cCr2 a r n ae st) ∨
      ev = .i2cStop ∨ (∃ b, ev = .i2cTx b) →
    ∀ off ∈ m.i2cOffsets, m.i2cWord (s.applyEvent ev).i2cPer off =
      (m.access s.i2cPer ev).foldl RegAccess.written (m.i2cWord s.i2cPer) off) ∧
  (∀ (s : State) (ev : Event), (∃ b, ev = .spiSpe b) ∨ (s.spiPer.spe = false ∧ ∃ br, ev = .spiCfg br) →
    ∀ off ∈ m.spiOffsets, m.spiWord (s.applyEvent ev).spiPer off =
      (m.access s.i2cPer ev).foldl RegAccess.written (m.spiWord s.spiPer) off) ∧
  (∀ s : State, m.access s.i2cPer .i2cClrStopf = [.write 0x1C 0x20] ∧
    m.i2cWord (s.applyEvent .i2cClrStopf).i2cPer 0x18 = m.i2cWord s.i2cPer 0x18 &&& ~~~0x20#32) ∧
  (∀ (s : State) (f : I2cFlag) (v : Bool), ∃ bit, m.access s.i2cPer (.i2cPoll f v) = [.readBit 0x18 bit] ∧
    (m.i2cWord (s.applyEvent (.i2cPoll f v)).i2cPer 0x18).getLsbD bit = v) ∧
  (∀ (s : State) (f : SpiFlag) (v : Bool), ∃ bit, m.access s.i2cPer (.spiPoll f v) = [.readBit 0x08 bit] ∧
    (m.spiWord (s.applyEvent (.spiPoll f v)).spiPer 0x08).getLsbD bit = v) ∧
  (∀ (s : State) (v : Byte), m.access s.i2cPer (.i2cRx v) = [.read 0x24 1] ∧
    m.i2cWord (s.applyEvent (.i2cRx v)).i2cPer 0x24 = v.setWidth 32) ∧
  (∀ off ∈ m.i2cOffsets, m.i2cWord State.reset.i2cPer off = if off = 0x18 then 0x00000001 else 0) ∧
  m.spiWord State.reset.spiPer 0x00 = 0x0000 ∧ m.spiWord State.reset.spiPer 0x04 = 0x0700 ∧
  m.spiWord State.reset.spiPer 0x08 = 0x0002

/-- 10_state R42, R43, R47, R49, R50, R54, R56, 42_spi R175: what each event of a command's step leaves in the named fields
of its peripheral, and on the CS line, whatever was there before. The model's choice in it: that a
status flag keeps what the poll saw and changes otherwise only by I2C_CLRSTOPF (log 31), that every control field, START and
STOP among them, stays as written, with RXDATA and the read side of DR at the value last received (log 28), and that CR1's
other bits are written 0 (the reference binding, log 20). -/
def Obligations.EventsWriteTheirFields : Prop :=
  (∀ s : State,
    (s.i2c.mpc = .in0 → StepsTo .i2cInit s fun t => t.i2cPer = { s.i2cPer with clksel := Config.i2cClkSrc }) ∧
    (s.i2c.mpc = .in1 → StepsTo .i2cInit s fun t =>
      t.i2cPer = { s.i2cPer with pe := false, cr1Other := ⟨0, 0, false, 0, false, false, false, false, 0⟩ }) ∧
    (s.i2c.mpc = .in2 → StepsTo .i2cInit s fun t =>
      t.i2cPer = { s.i2cPer with
        presc := Config.i2cPresc, scldel := Config.i2cScldel, sdadel := Config.i2cSdadel
        sclh := Config.i2cSclh, scll := Config.i2cScll }) ∧
    (s.i2c.mpc = .in3 → StepsTo .i2cInit s fun t =>
      t.i2cPer = { s.i2cPer with pe := true, cr1Other := ⟨0, 0, false, 0, false, false, false, false, 0⟩ })) ∧
  (∀ (dev : BitVec 7) (reg n : BitVec 8) (s : State) (v : BitVec 32) (b : Bool) (env : Environment),
    let i : Instr := .i2cRead dev reg n
    let x := s.i2c
    let p := s.i2cPer
    let programmed := fun rdWrn nbytes autoend : _ =>
      { p with
        sadd := x.latch.dev.setWidth 10 <<< 1, rdWrn := rdWrn, nbytes := nbytes, autoend := autoend, start := true
        stop := false, add10 := false, head10r := false, reload := false, nackReq := false, pecByte := false }
    (x.mpc = .rd0 → StepsTo i s fun t => t.i2cPer = programmed false 1 false) ∧
    (x.mpc = .rd4 → StepsTo i s fun t => t.i2cPer = programmed true x.latch.n false) ∧
    (x.mpc = .rd2 → StepsTo i s fun t => t.i2cPer = { p with txdata := x.latch.reg }) ∧
    (x.mpc = .rd6 → x.idx.toNat < 256 → x.env.drawValue .i2ce = (v, env) →
      StepsTo i s fun t => t.i2cPer = { p with rxdata := v.extractLsb' 0 8 }) ∧
    (x.mpc = .rd7 → StepsTo i s fun t => t.i2cPer = { p with stop := true }) ∧
    (x.mpc = .rd9 → StepsTo i s fun t => t.i2cPer = { p with isr := { p.isr with stopf := false } }) ∧
    (x.env.drawFlag .i2ce = (b, env) →
      (x.mpc = .rd1 → StepsTo i s fun t => t.i2cPer = { p with isr := { p.isr with txis := b } }) ∧
      (x.mpc = .rd3 → StepsTo i s fun t => t.i2cPer = { p with isr := { p.isr with tc := b } }) ∧
      (x.mpc = .rd5 → StepsTo i s fun t => t.i2cPer = { p with isr := { p.isr with rxne := b } }) ∧
      (x.mpc = .rd8 → StepsTo i s fun t => t.i2cPer = { p with isr := { p.isr with stopf := b } })) ∧
    (x.mpc = .wr0 → StepsTo (.i2cWrite dev reg n) s fun t => t.i2cPer = programmed false (x.latch.n + 1) true) ∧
    (x.mpc = .wr2 → StepsTo (.i2cWrite dev reg n) s fun t => t.i2cPer = { p with txdata := x.latch.reg }) ∧
    (x.mpc = .wr4 → x.idx.toNat < 256 → x.contested = [] →
      StepsTo (.i2cWrite dev reg n) s fun t => t.i2cPer = { p with txdata := x.bufByte .i2ce x.idx.toNat })) ∧
  (∀ s : State,
    let p := s.spiPer
    (s.spi.mpc = .si0 → StepsTo .spiInit s fun t => t.spiPer = { p with spe := false } ∧ t.cs = s.cs) ∧
    (s.spi.mpc = .si1 → StepsTo .spiInit s fun t => t.cs = s.cs ∧
      t.spiPer = { p with
        mstr := true, ssm := true, ssi := true, br := Config.spiBr, cpol := false, cpha := false, lsbfirst := false
        frame := .bits8, cr1Other := ⟨false, false, false, false, false, false⟩ }) ∧
    (s.spi.mpc = .si2 → StepsTo .spiInit s fun t => t.spiPer = p ∧ t.cs = .high) ∧
    (s.spi.mpc = .si3 → StepsTo .spiInit s fun t => t.spiPer = { p with spe := true } ∧ t.cs = s.cs)) ∧
  (∀ (data8 reg n : BitVec 8) (data16 : BitVec 16) (s : State) (v : BitVec 32) (b : Bool) (env : Environment),
    let x := s.spi
    let p := s.spiPer
    let sent := fun byte : BitVec 8 => { p with drTx := byte.setWidth 16, drWide := false }
    (x.mpc = .x1 → StepsTo (.spiSr8 data8) s fun t => t.spiPer = sent (x.latch.data.extractLsb' 0 8)) ∧
    (x.mpc = .y1 → StepsTo (.spiSr16 data16) s fun t => t.spiPer = { p with drTx := x.latch.data, drWide := true }) ∧
    (x.mpc = .b2 → StepsTo (.spiBurst reg n) s fun t => t.spiPer = sent (x.latch.reg ||| 0x80)) ∧
    (x.mpc = .b6 ∨ x.mpc = .b10 ∨ x.mpc = .b14 →
      StepsTo (.spiBurst reg n) s fun t => t.spiPer = sent Config.spiDummy) ∧
    (x.env.drawValue .spie = (v, env) →
      (x.mpc = .x3 → StepsTo (.spiSr8 data8) s fun t =>
        t.spiPer = { p with drRx := (v.extractLsb' 0 8).setWidth 16 }) ∧
      (x.mpc = .y3 → StepsTo (.spiSr16 data16) s fun t => t.spiPer = { p with drRx := v.extractLsb' 0 16 }) ∧
      (x.mpc = .b4 ∨ x.mpc = .b8 ∨ x.mpc = .b12 ∨ (x.mpc = .b16 ∧ x.idx.toNat < 256) →
        StepsTo (.spiBurst reg n) s fun t => t.spiPer = { p with drRx := (v.extractLsb' 0 8).setWidth 16 })) ∧
    (x.env.drawFlag .spie = (b, env) →
      (x.mpc = .x0 → StepsTo (.spiSr8 data8) s fun t => t.spiPer = { p with sr := { p.sr with txe := b } }) ∧
      (x.mpc = .y2 → StepsTo (.spiSr16 data16) s fun t => t.spiPer = { p with sr := { p.sr with rxne := b } })) ∧
    (x.mpc = .b0 → StepsTo (.spiBurst reg n) s fun t => t.spiPer = p ∧ t.cs = .low) ∧
    (x.mpc = .b17 ∨ x.mpc = .bf0 → StepsTo (.spiBurst reg n) s fun t => t.spiPer = p ∧ t.cs = .high))

/-- 30_encoding R99: a WAIT reads STATUS once a turn and stays pending while it read BUSY = 1. -/
def Obligations.WaitSpinsOnBusy : Prop :=
  ∀ (s : State) (e : EngineId), (s.engine e).faults.cmdWhileBusy = false →
    hostAction (.wait e) s = .next { s with
      hostRead := (s.engine e).status.word
      hostOps := if (s.engine e).status.busy = true then .wait e :: s.hostOps else s.hostOps }

/-! ### Reset (70_reset R250) -/

/-- 10_state R59, 70_reset R250: what the spec states of the reset state. -/
def Obligations.ResetStateValues : Prop :=
  (∀ e, (State.reset.engine e).cmd = 0 ∧ (State.reset.engine e).status.word = 0 ∧
    (State.reset.engine e).result.word = 0 ∧ (State.reset.engine e).mpc = .idle ∧
    (∀ k, (State.reset.engine e).faults.has k = false) ∧ (State.reset.engine e).trace = [] ∧
    ∀ k, (State.reset.engine e).bufByte e k = Config.bufAtReset e 0 k) ∧
  State.reset.cs = .unknown

/-- 70_reset R250, 10_state R39: a reset within a run emits no event, abandons a running command without FINISH, leaves the
peripherals' fields, clears no recorded fault, and makes every BUF byte a fresh free value. The CS level after it is the
model's reading (log 14). -/
def Obligations.ResetAbandonsTheCommand : Prop :=
  ∀ s : State, ∃ t, hostAction .reset s = .next t ∧
    (∀ e, (t.engine e).cmd = 0 ∧ (t.engine e).status.word = 0 ∧ (t.engine e).result.word = 0 ∧
      (t.engine e).mpc = .idle ∧ (t.engine e).trace = [] ∧ (t.engine e).faults = (s.engine e).faults ∧
      ∀ k, (t.engine e).bufByte e k = Config.bufAtReset e ((s.engine e).bufEpoch + 1) k) ∧
    t.i2cPer = s.i2cPer ∧ t.spiPer = s.spiPer ∧
    (s.spi.status.busy = true → t.cs = s.cs) ∧ (s.spi.status.busy = false → t.cs = .unknown)
end

