-- ==== Sys2Proof/Laws/State.lean ====
section
/-! SUPPORT. What each small update leaves in each field, so that no later proof unfolds one. -/

namespace Sys2Proof.Machine

section EngineUpdates
variable (x : Engine)

@[simp] theorem Engine.setPhase_cmd (p : Phase) : (x.setPhase p).cmd = x.cmd := rfl
@[simp] theorem Engine.setPhase_status (p : Phase) : (x.setPhase p).status = { x.status with phase := p } := rfl
@[simp] theorem Engine.setPhase_result (p : Phase) : (x.setPhase p).result = x.result := rfl
@[simp] theorem Engine.setPhase_buf (p : Phase) : (x.setPhase p).buf = x.buf := rfl
@[simp] theorem Engine.setPhase_bufEpoch (p : Phase) : (x.setPhase p).bufEpoch = x.bufEpoch := rfl
@[simp] theorem Engine.setPhase_mpc (p : Phase) : (x.setPhase p).mpc = x.mpc := rfl
@[simp] theorem Engine.setPhase_budget (p : Phase) : (x.setPhase p).budget = x.budget := rfl
@[simp] theorem Engine.setPhase_idx (p : Phase) : (x.setPhase p).idx = x.idx := rfl
@[simp] theorem Engine.setPhase_latch (p : Phase) : (x.setPhase p).latch = x.latch := rfl
@[simp] theorem Engine.setPhase_fail (p : Phase) : (x.setPhase p).fail = x.fail := rfl
@[simp] theorem Engine.setPhase_tmp (p : Phase) : (x.setPhase p).tmp = x.tmp := rfl
@[simp] theorem Engine.setPhase_faults (p : Phase) : (x.setPhase p).faults = x.faults := rfl
@[simp] theorem Engine.setPhase_trace (p : Phase) : (x.setPhase p).trace = x.trace := rfl
@[simp] theorem Engine.setPhase_env (p : Phase) : (x.setPhase p).env = x.env := rfl
@[simp] theorem Engine.setPhase_contested (p : Phase) : (x.setPhase p).contested = x.contested := rfl

@[simp] theorem Engine.setCsdrv_cmd (b : Bool) : (x.setCsdrv b).cmd = x.cmd := rfl
@[simp] theorem Engine.setCsdrv_status (b : Bool) : (x.setCsdrv b).status = { x.status with csdrv := b } := rfl
@[simp] theorem Engine.setCsdrv_result (b : Bool) : (x.setCsdrv b).result = x.result := rfl
@[simp] theorem Engine.setCsdrv_buf (b : Bool) : (x.setCsdrv b).buf = x.buf := rfl
@[simp] theorem Engine.setCsdrv_bufEpoch (b : Bool) : (x.setCsdrv b).bufEpoch = x.bufEpoch := rfl
@[simp] theorem Engine.setCsdrv_mpc (b : Bool) : (x.setCsdrv b).mpc = x.mpc := rfl
@[simp] theorem Engine.setCsdrv_budget (b : Bool) : (x.setCsdrv b).budget = x.budget := rfl
@[simp] theorem Engine.setCsdrv_idx (b : Bool) : (x.setCsdrv b).idx = x.idx := rfl
@[simp] theorem Engine.setCsdrv_latch (b : Bool) : (x.setCsdrv b).latch = x.latch := rfl
@[simp] theorem Engine.setCsdrv_fail (b : Bool) : (x.setCsdrv b).fail = x.fail := rfl
@[simp] theorem Engine.setCsdrv_tmp (b : Bool) : (x.setCsdrv b).tmp = x.tmp := rfl
@[simp] theorem Engine.setCsdrv_faults (b : Bool) : (x.setCsdrv b).faults = x.faults := rfl
@[simp] theorem Engine.setCsdrv_trace (b : Bool) : (x.setCsdrv b).trace = x.trace := rfl
@[simp] theorem Engine.setCsdrv_env (b : Bool) : (x.setCsdrv b).env = x.env := rfl
@[simp] theorem Engine.setCsdrv_contested (b : Bool) : (x.setCsdrv b).contested = x.contested := rfl

@[simp] theorem Engine.setIdx_cmd (v : BitVec 9) : (x.setIdx v).cmd = x.cmd := rfl
@[simp] theorem Engine.setIdx_status (v : BitVec 9) : (x.setIdx v).status = x.status := rfl
@[simp] theorem Engine.setIdx_result (v : BitVec 9) : (x.setIdx v).result = x.result := rfl
@[simp] theorem Engine.setIdx_buf (v : BitVec 9) : (x.setIdx v).buf = x.buf := rfl
@[simp] theorem Engine.setIdx_bufEpoch (v : BitVec 9) : (x.setIdx v).bufEpoch = x.bufEpoch := rfl
@[simp] theorem Engine.setIdx_mpc (v : BitVec 9) : (x.setIdx v).mpc = x.mpc := rfl
@[simp] theorem Engine.setIdx_budget (v : BitVec 9) : (x.setIdx v).budget = x.budget := rfl
@[simp] theorem Engine.setIdx_idx (v : BitVec 9) : (x.setIdx v).idx = v := rfl
@[simp] theorem Engine.setIdx_latch (v : BitVec 9) : (x.setIdx v).latch = x.latch := rfl
@[simp] theorem Engine.setIdx_fail (v : BitVec 9) : (x.setIdx v).fail = x.fail := rfl
@[simp] theorem Engine.setIdx_tmp (v : BitVec 9) : (x.setIdx v).tmp = x.tmp := rfl
@[simp] theorem Engine.setIdx_faults (v : BitVec 9) : (x.setIdx v).faults = x.faults := rfl
@[simp] theorem Engine.setIdx_trace (v : BitVec 9) : (x.setIdx v).trace = x.trace := rfl
@[simp] theorem Engine.setIdx_env (v : BitVec 9) : (x.setIdx v).env = x.env := rfl
@[simp] theorem Engine.setIdx_contested (v : BitVec 9) : (x.setIdx v).contested = x.contested := rfl

@[simp] theorem Engine.append_cmd (ev : Event) : (x.append ev).cmd = x.cmd := rfl
@[simp] theorem Engine.append_status (ev : Event) : (x.append ev).status = x.status := rfl
@[simp] theorem Engine.append_result (ev : Event) : (x.append ev).result = x.result := rfl
@[simp] theorem Engine.append_buf (ev : Event) : (x.append ev).buf = x.buf := rfl
@[simp] theorem Engine.append_bufEpoch (ev : Event) : (x.append ev).bufEpoch = x.bufEpoch := rfl
@[simp] theorem Engine.append_mpc (ev : Event) : (x.append ev).mpc = x.mpc := rfl
@[simp] theorem Engine.append_budget (ev : Event) : (x.append ev).budget = x.budget := rfl
@[simp] theorem Engine.append_idx (ev : Event) : (x.append ev).idx = x.idx := rfl
@[simp] theorem Engine.append_latch (ev : Event) : (x.append ev).latch = x.latch := rfl
@[simp] theorem Engine.append_fail (ev : Event) : (x.append ev).fail = x.fail := rfl
@[simp] theorem Engine.append_tmp (ev : Event) : (x.append ev).tmp = x.tmp := rfl
@[simp] theorem Engine.append_faults (ev : Event) : (x.append ev).faults = x.faults := rfl
@[simp] theorem Engine.append_trace (ev : Event) : (x.append ev).trace = x.trace ++ [ev] := rfl
@[simp] theorem Engine.append_env (ev : Event) : (x.append ev).env = x.env := rfl
@[simp] theorem Engine.append_contested (ev : Event) : (x.append ev).contested = x.contested := rfl

@[simp] theorem Engine.raise_cmd (k : HostFaultKind) : (x.raise k).cmd = x.cmd := rfl
@[simp] theorem Engine.raise_status (k : HostFaultKind) : (x.raise k).status = x.status := rfl
@[simp] theorem Engine.raise_result (k : HostFaultKind) : (x.raise k).result = x.result := rfl
@[simp] theorem Engine.raise_buf (k : HostFaultKind) : (x.raise k).buf = x.buf := rfl
@[simp] theorem Engine.raise_bufEpoch (k : HostFaultKind) : (x.raise k).bufEpoch = x.bufEpoch := rfl
@[simp] theorem Engine.raise_mpc (k : HostFaultKind) : (x.raise k).mpc = x.mpc := rfl
@[simp] theorem Engine.raise_budget (k : HostFaultKind) : (x.raise k).budget = x.budget := rfl
@[simp] theorem Engine.raise_idx (k : HostFaultKind) : (x.raise k).idx = x.idx := rfl
@[simp] theorem Engine.raise_latch (k : HostFaultKind) : (x.raise k).latch = x.latch := rfl
@[simp] theorem Engine.raise_fail (k : HostFaultKind) : (x.raise k).fail = x.fail := rfl
@[simp] theorem Engine.raise_tmp (k : HostFaultKind) : (x.raise k).tmp = x.tmp := rfl
@[simp] theorem Engine.raise_faults (k : HostFaultKind) : (x.raise k).faults = x.faults.record k := rfl
@[simp] theorem Engine.raise_trace (k : HostFaultKind) : (x.raise k).trace = x.trace := rfl
@[simp] theorem Engine.raise_env (k : HostFaultKind) : (x.raise k).env = x.env := rfl
@[simp] theorem Engine.raise_contested (k : HostFaultKind) : (x.raise k).contested = x.contested := rfl

@[simp] theorem Engine.setBuf_cmd (k : Nat) (v : Byte) : (x.setBuf k v).cmd = x.cmd := rfl
@[simp] theorem Engine.setBuf_status (k : Nat) (v : Byte) : (x.setBuf k v).status = x.status := rfl
@[simp] theorem Engine.setBuf_result (k : Nat) (v : Byte) : (x.setBuf k v).result = x.result := rfl
@[simp] theorem Engine.setBuf_buf (k : Nat) (v : Byte) : (x.setBuf k v).buf = x.buf.write k v := rfl
@[simp] theorem Engine.setBuf_bufEpoch (k : Nat) (v : Byte) : (x.setBuf k v).bufEpoch = x.bufEpoch := rfl
@[simp] theorem Engine.setBuf_mpc (k : Nat) (v : Byte) : (x.setBuf k v).mpc = x.mpc := rfl
@[simp] theorem Engine.setBuf_budget (k : Nat) (v : Byte) : (x.setBuf k v).budget = x.budget := rfl
@[simp] theorem Engine.setBuf_idx (k : Nat) (v : Byte) : (x.setBuf k v).idx = x.idx := rfl
@[simp] theorem Engine.setBuf_latch (k : Nat) (v : Byte) : (x.setBuf k v).latch = x.latch := rfl
@[simp] theorem Engine.setBuf_fail (k : Nat) (v : Byte) : (x.setBuf k v).fail = x.fail := rfl
@[simp] theorem Engine.setBuf_tmp (k : Nat) (v : Byte) : (x.setBuf k v).tmp = x.tmp := rfl
@[simp] theorem Engine.setBuf_faults (k : Nat) (v : Byte) : (x.setBuf k v).faults = x.faults := rfl
@[simp] theorem Engine.setBuf_trace (k : Nat) (v : Byte) : (x.setBuf k v).trace = x.trace := rfl
@[simp] theorem Engine.setBuf_env (k : Nat) (v : Byte) : (x.setBuf k v).env = x.env := rfl
@[simp] theorem Engine.setBuf_contested (k : Nat) (v : Byte) : (x.setBuf k v).contested = x.contested := rfl

@[simp] theorem Engine.finish_cmd (r : Result) : (x.finish r).cmd = x.cmd := rfl
@[simp] theorem Engine.finish_status (r : Result) : (x.finish r).status = { x.status with valid := true, busy := false } := rfl
@[simp] theorem Engine.finish_result (r : Result) : (x.finish r).result = r := rfl
@[simp] theorem Engine.finish_buf (r : Result) : (x.finish r).buf = x.buf := rfl
@[simp] theorem Engine.finish_bufEpoch (r : Result) : (x.finish r).bufEpoch = x.bufEpoch := rfl
@[simp] theorem Engine.finish_mpc (r : Result) : (x.finish r).mpc = .idle := rfl
@[simp] theorem Engine.finish_budget (r : Result) : (x.finish r).budget = x.budget := rfl
@[simp] theorem Engine.finish_idx (r : Result) : (x.finish r).idx = x.idx := rfl
@[simp] theorem Engine.finish_latch (r : Result) : (x.finish r).latch = x.latch := rfl
@[simp] theorem Engine.finish_fail (r : Result) : (x.finish r).fail = x.fail := rfl
@[simp] theorem Engine.finish_tmp (r : Result) : (x.finish r).tmp = x.tmp := rfl
@[simp] theorem Engine.finish_faults (r : Result) : (x.finish r).faults = x.faults := rfl
@[simp] theorem Engine.finish_trace (r : Result) : (x.finish r).trace = x.trace := rfl
@[simp] theorem Engine.finish_env (r : Result) : (x.finish r).env = x.env := rfl
@[simp] theorem Engine.finish_contested (r : Result) : (x.finish r).contested = x.contested := rfl

@[simp] theorem Engine.goto_cmd (l : Label) : (x.goto l).cmd = x.cmd := by
  unfold Engine.goto; split <;> rfl
@[simp] theorem Engine.goto_status (l : Label) : (x.goto l).status = x.status := by
  unfold Engine.goto; split <;> rfl
@[simp] theorem Engine.goto_result (l : Label) : (x.goto l).result = x.result := by
  unfold Engine.goto; split <;> rfl
@[simp] theorem Engine.goto_buf (l : Label) : (x.goto l).buf = x.buf := by
  unfold Engine.goto; split <;> rfl
@[simp] theorem Engine.goto_bufEpoch (l : Label) : (x.goto l).bufEpoch = x.bufEpoch := by
  unfold Engine.goto; split <;> rfl
@[simp] theorem Engine.goto_mpc (l : Label) : (x.goto l).mpc = l := by
  unfold Engine.goto; split <;> simp_all
@[simp] theorem Engine.goto_budget (l : Label) : (x.goto l).budget = (match awaitSite l with | some site => Config.timeoutBudget site | none => x.budget) := by
  unfold Engine.goto; split <;> simp_all
@[simp] theorem Engine.goto_idx (l : Label) : (x.goto l).idx = x.idx := by
  unfold Engine.goto; split <;> rfl
@[simp] theorem Engine.goto_latch (l : Label) : (x.goto l).latch = x.latch := by
  unfold Engine.goto; split <;> rfl
@[simp] theorem Engine.goto_fail (l : Label) : (x.goto l).fail = x.fail := by
  unfold Engine.goto; split <;> rfl
@[simp] theorem Engine.goto_tmp (l : Label) : (x.goto l).tmp = x.tmp := by
  unfold Engine.goto; split <;> rfl
@[simp] theorem Engine.goto_faults (l : Label) : (x.goto l).faults = x.faults := by
  unfold Engine.goto; split <;> rfl
@[simp] theorem Engine.goto_trace (l : Label) : (x.goto l).trace = x.trace := by
  unfold Engine.goto; split <;> rfl
@[simp] theorem Engine.goto_env (l : Label) : (x.goto l).env = x.env := by
  unfold Engine.goto; split <;> rfl
@[simp] theorem Engine.goto_contested (l : Label) : (x.goto l).contested = x.contested := by
  unfold Engine.goto; split <;> rfl

end EngineUpdates

section StateUpdates
variable (s : State)

@[simp] theorem State.engine_i2ce : s.engine .i2ce = s.i2c := rfl
@[simp] theorem State.engine_spie : s.engine .spie = s.spi := rfl

@[simp] theorem State.setEngine_i2ce_i2c (x : Engine) : (s.setEngine .i2ce x).i2c = x := rfl
@[simp] theorem State.setEngine_i2ce_spi (x : Engine) : (s.setEngine .i2ce x).spi = s.spi := rfl
@[simp] theorem State.setEngine_i2ce_i2cPer (x : Engine) : (s.setEngine .i2ce x).i2cPer = s.i2cPer := rfl
@[simp] theorem State.setEngine_i2ce_spiPer (x : Engine) : (s.setEngine .i2ce x).spiPer = s.spiPer := rfl
@[simp] theorem State.setEngine_i2ce_cs (x : Engine) : (s.setEngine .i2ce x).cs = s.cs := rfl
@[simp] theorem State.setEngine_i2ce_hostOps (x : Engine) : (s.setEngine .i2ce x).hostOps = s.hostOps := rfl
@[simp] theorem State.setEngine_i2ce_hostRead (x : Engine) : (s.setEngine .i2ce x).hostRead = s.hostRead := rfl
@[simp] theorem State.setEngine_i2ce_turns (x : Engine) : (s.setEngine .i2ce x).turns = s.turns := rfl
@[simp] theorem State.setEngine_i2ce_tick (x : Engine) : (s.setEngine .i2ce x).tick = s.tick := rfl

@[simp] theorem State.setEngine_spie_i2c (x : Engine) : (s.setEngine .spie x).i2c = s.i2c := rfl
@[simp] theorem State.setEngine_spie_spi (x : Engine) : (s.setEngine .spie x).spi = x := rfl
@[simp] theorem State.setEngine_spie_i2cPer (x : Engine) : (s.setEngine .spie x).i2cPer = s.i2cPer := rfl
@[simp] theorem State.setEngine_spie_spiPer (x : Engine) : (s.setEngine .spie x).spiPer = s.spiPer := rfl
@[simp] theorem State.setEngine_spie_cs (x : Engine) : (s.setEngine .spie x).cs = s.cs := rfl
@[simp] theorem State.setEngine_spie_hostOps (x : Engine) : (s.setEngine .spie x).hostOps = s.hostOps := rfl
@[simp] theorem State.setEngine_spie_hostRead (x : Engine) : (s.setEngine .spie x).hostRead = s.hostRead := rfl
@[simp] theorem State.setEngine_spie_turns (x : Engine) : (s.setEngine .spie x).turns = s.turns := rfl
@[simp] theorem State.setEngine_spie_tick (x : Engine) : (s.setEngine .spie x).tick = s.tick := rfl

@[simp] theorem State.onEngine_i2ce_i2c (g : Engine → Engine) : (s.onEngine .i2ce g).i2c = g s.i2c := rfl
@[simp] theorem State.onEngine_i2ce_spi (g : Engine → Engine) : (s.onEngine .i2ce g).spi = s.spi := rfl
@[simp] theorem State.onEngine_i2ce_i2cPer (g : Engine → Engine) : (s.onEngine .i2ce g).i2cPer = s.i2cPer := rfl
@[simp] theorem State.onEngine_i2ce_spiPer (g : Engine → Engine) : (s.onEngine .i2ce g).spiPer = s.spiPer := rfl
@[simp] theorem State.onEngine_i2ce_cs (g : Engine → Engine) : (s.onEngine .i2ce g).cs = s.cs := rfl
@[simp] theorem State.onEngine_i2ce_hostOps (g : Engine → Engine) : (s.onEngine .i2ce g).hostOps = s.hostOps := rfl
@[simp] theorem State.onEngine_i2ce_hostRead (g : Engine → Engine) : (s.onEngine .i2ce g).hostRead = s.hostRead := rfl
@[simp] theorem State.onEngine_i2ce_turns (g : Engine → Engine) : (s.onEngine .i2ce g).turns = s.turns := rfl
@[simp] theorem State.onEngine_i2ce_tick (g : Engine → Engine) : (s.onEngine .i2ce g).tick = s.tick := rfl

@[simp] theorem State.onEngine_spie_i2c (g : Engine → Engine) : (s.onEngine .spie g).i2c = s.i2c := rfl
@[simp] theorem State.onEngine_spie_spi (g : Engine → Engine) : (s.onEngine .spie g).spi = g s.spi := rfl
@[simp] theorem State.onEngine_spie_i2cPer (g : Engine → Engine) : (s.onEngine .spie g).i2cPer = s.i2cPer := rfl
@[simp] theorem State.onEngine_spie_spiPer (g : Engine → Engine) : (s.onEngine .spie g).spiPer = s.spiPer := rfl
@[simp] theorem State.onEngine_spie_cs (g : Engine → Engine) : (s.onEngine .spie g).cs = s.cs := rfl
@[simp] theorem State.onEngine_spie_hostOps (g : Engine → Engine) : (s.onEngine .spie g).hostOps = s.hostOps := rfl
@[simp] theorem State.onEngine_spie_hostRead (g : Engine → Engine) : (s.onEngine .spie g).hostRead = s.hostRead := rfl
@[simp] theorem State.onEngine_spie_turns (g : Engine → Engine) : (s.onEngine .spie g).turns = s.turns := rfl
@[simp] theorem State.onEngine_spie_tick (g : Engine → Engine) : (s.onEngine .spie g).tick = s.tick := rfl

@[simp] theorem State.setPhase_i2ce_i2c (p : Phase) : (s.setPhase .i2ce p).i2c = s.i2c.setPhase p := rfl
@[simp] theorem State.setPhase_i2ce_spi (p : Phase) : (s.setPhase .i2ce p).spi = s.spi := rfl
@[simp] theorem State.setPhase_i2ce_i2cPer (p : Phase) : (s.setPhase .i2ce p).i2cPer = s.i2cPer := rfl
@[simp] theorem State.setPhase_i2ce_spiPer (p : Phase) : (s.setPhase .i2ce p).spiPer = s.spiPer := rfl
@[simp] theorem State.setPhase_i2ce_cs (p : Phase) : (s.setPhase .i2ce p).cs = s.cs := rfl
@[simp] theorem State.setPhase_i2ce_hostOps (p : Phase) : (s.setPhase .i2ce p).hostOps = s.hostOps := rfl
@[simp] theorem State.setPhase_i2ce_hostRead (p : Phase) : (s.setPhase .i2ce p).hostRead = s.hostRead := rfl
@[simp] theorem State.setPhase_i2ce_turns (p : Phase) : (s.setPhase .i2ce p).turns = s.turns := rfl
@[simp] theorem State.setPhase_i2ce_tick (p : Phase) : (s.setPhase .i2ce p).tick = s.tick := rfl

@[simp] theorem State.setPhase_spie_i2c (p : Phase) : (s.setPhase .spie p).i2c = s.i2c := rfl
@[simp] theorem State.setPhase_spie_spi (p : Phase) : (s.setPhase .spie p).spi = s.spi.setPhase p := rfl
@[simp] theorem State.setPhase_spie_i2cPer (p : Phase) : (s.setPhase .spie p).i2cPer = s.i2cPer := rfl
@[simp] theorem State.setPhase_spie_spiPer (p : Phase) : (s.setPhase .spie p).spiPer = s.spiPer := rfl
@[simp] theorem State.setPhase_spie_cs (p : Phase) : (s.setPhase .spie p).cs = s.cs := rfl
@[simp] theorem State.setPhase_spie_hostOps (p : Phase) : (s.setPhase .spie p).hostOps = s.hostOps := rfl
@[simp] theorem State.setPhase_spie_hostRead (p : Phase) : (s.setPhase .spie p).hostRead = s.hostRead := rfl
@[simp] theorem State.setPhase_spie_turns (p : Phase) : (s.setPhase .spie p).turns = s.turns := rfl
@[simp] theorem State.setPhase_spie_tick (p : Phase) : (s.setPhase .spie p).tick = s.tick := rfl

@[simp] theorem State.applyEvent_i2c (ev : Event) : (s.applyEvent ev).i2c = s.i2c := by
  cases ev <;> rfl
@[simp] theorem State.applyEvent_spi (ev : Event) : (s.applyEvent ev).spi = s.spi := by
  cases ev <;> rfl
@[simp] theorem State.applyEvent_hostOps (ev : Event) : (s.applyEvent ev).hostOps = s.hostOps := by
  cases ev <;> rfl
@[simp] theorem State.applyEvent_hostRead (ev : Event) : (s.applyEvent ev).hostRead = s.hostRead := by
  cases ev <;> rfl
@[simp] theorem State.applyEvent_turns (ev : Event) : (s.applyEvent ev).turns = s.turns := by
  cases ev <;> rfl
@[simp] theorem State.applyEvent_tick (ev : Event) : (s.applyEvent ev).tick = s.tick := by
  cases ev <;> rfl

@[simp] theorem State.applyEvent_i2cClkSel_i2cPer (src : ClockSource) :
    (s.applyEvent (.i2cClkSel src)).i2cPer =
      { s.i2cPer with clksel := src } := rfl
@[simp] theorem State.applyEvent_i2cClkSel_spiPer (src : ClockSource) :
    (s.applyEvent (.i2cClkSel src)).spiPer = s.spiPer := rfl
@[simp] theorem State.applyEvent_i2cClkSel_cs (src : ClockSource) :
    (s.applyEvent (.i2cClkSel src)).cs = s.cs := rfl
@[simp] theorem State.applyEvent_i2cPe_i2cPer (b : Bool) :
    (s.applyEvent (.i2cPe b)).i2cPer =
      { s.i2cPer with pe := b, cr1Other := I2cCr1Other.zero } := rfl
@[simp] theorem State.applyEvent_i2cPe_spiPer (b : Bool) :
    (s.applyEvent (.i2cPe b)).spiPer = s.spiPer := rfl
@[simp] theorem State.applyEvent_i2cPe_cs (b : Bool) :
    (s.applyEvent (.i2cPe b)).cs = s.cs := rfl
@[simp] theorem State.applyEvent_i2cTiming_i2cPer (presc scldel sdadel : BitVec 4) (sclh scll : BitVec 8) :
    (s.applyEvent (.i2cTiming presc scldel sdadel sclh scll)).i2cPer =
      { s.i2cPer with presc := presc, scldel := scldel, sdadel := sdadel, sclh := sclh, scll := scll } := rfl
@[simp] theorem State.applyEvent_i2cTiming_spiPer (presc scldel sdadel : BitVec 4) (sclh scll : BitVec 8) :
    (s.applyEvent (.i2cTiming presc scldel sdadel sclh scll)).spiPer = s.spiPer := rfl
@[simp] theorem State.applyEvent_i2cTiming_cs (presc scldel sdadel : BitVec 4) (sclh scll : BitVec 8) :
    (s.applyEvent (.i2cTiming presc scldel sdadel sclh scll)).cs = s.cs := rfl
@[simp] theorem State.applyEvent_i2cCr2_i2cPer (sadd : BitVec 10) (rdWrn : Bool) (nbytes : BitVec 8) (autoend start : Bool) :
    (s.applyEvent (.i2cCr2 sadd rdWrn nbytes autoend start)).i2cPer =
      { s.i2cPer with
        sadd := sadd, rdWrn := rdWrn, nbytes := nbytes, autoend := autoend, start := start, stop := false,
        add10 := false, head10r := false, reload := false, nackReq := false, pecByte := false } := rfl
@[simp] theorem State.applyEvent_i2cCr2_spiPer (sadd : BitVec 10) (rdWrn : Bool) (nbytes : BitVec 8) (autoend start : Bool) :
    (s.applyEvent (.i2cCr2 sadd rdWrn nbytes autoend start)).spiPer = s.spiPer := rfl
@[simp] theorem State.applyEvent_i2cCr2_cs (sadd : BitVec 10) (rdWrn : Bool) (nbytes : BitVec 8) (autoend start : Bool) :
    (s.applyEvent (.i2cCr2 sadd rdWrn nbytes autoend start)).cs = s.cs := rfl
@[simp] theorem State.applyEvent_i2cStop_i2cPer :
    (s.applyEvent (.i2cStop)).i2cPer =
      { s.i2cPer with stop := true } := rfl
@[simp] theorem State.applyEvent_i2cStop_spiPer :
    (s.applyEvent (.i2cStop)).spiPer = s.spiPer := rfl
@[simp] theorem State.applyEvent_i2cStop_cs :
    (s.applyEvent (.i2cStop)).cs = s.cs := rfl
@[simp] theorem State.applyEvent_i2cTx_i2cPer (b : Byte) :
    (s.applyEvent (.i2cTx b)).i2cPer =
      { s.i2cPer with txdata := b } := rfl
@[simp] theorem State.applyEvent_i2cTx_spiPer (b : Byte) :
    (s.applyEvent (.i2cTx b)).spiPer = s.spiPer := rfl
@[simp] theorem State.applyEvent_i2cTx_cs (b : Byte) :
    (s.applyEvent (.i2cTx b)).cs = s.cs := rfl
@[simp] theorem State.applyEvent_i2cRx_i2cPer (v : Byte) :
    (s.applyEvent (.i2cRx v)).i2cPer =
      { s.i2cPer with rxdata := v } := rfl
@[simp] theorem State.applyEvent_i2cRx_spiPer (v : Byte) :
    (s.applyEvent (.i2cRx v)).spiPer = s.spiPer := rfl
@[simp] theorem State.applyEvent_i2cRx_cs (v : Byte) :
    (s.applyEvent (.i2cRx v)).cs = s.cs := rfl
@[simp] theorem State.applyEvent_i2cPoll_i2cPer (f : I2cFlag) (v : Bool) :
    (s.applyEvent (.i2cPoll f v)).i2cPer =
      { s.i2cPer with isr := s.i2cPer.isr.observe f v } := rfl
@[simp] theorem State.applyEvent_i2cPoll_spiPer (f : I2cFlag) (v : Bool) :
    (s.applyEvent (.i2cPoll f v)).spiPer = s.spiPer := rfl
@[simp] theorem State.applyEvent_i2cPoll_cs (f : I2cFlag) (v : Bool) :
    (s.applyEvent (.i2cPoll f v)).cs = s.cs := rfl
@[simp] theorem State.applyEvent_i2cClrStopf_i2cPer :
    (s.applyEvent (.i2cClrStopf)).i2cPer =
      { s.i2cPer with isr := { s.i2cPer.isr with stopf := false } } := rfl
@[simp] theorem State.applyEvent_i2cClrStopf_spiPer :
    (s.applyEvent (.i2cClrStopf)).spiPer = s.spiPer := rfl
@[simp] theorem State.applyEvent_i2cClrStopf_cs :
    (s.applyEvent (.i2cClrStopf)).cs = s.cs := rfl
@[simp] theorem State.applyEvent_spiSpe_i2cPer (b : Bool) :
    (s.applyEvent (.spiSpe b)).i2cPer = s.i2cPer := rfl
@[simp] theorem State.applyEvent_spiSpe_spiPer (b : Bool) :
    (s.applyEvent (.spiSpe b)).spiPer =
      { s.spiPer with spe := b } := rfl
@[simp] theorem State.applyEvent_spiSpe_cs (b : Bool) :
    (s.applyEvent (.spiSpe b)).cs = s.cs := rfl
@[simp] theorem State.applyEvent_spiCfg_i2cPer (br : BitVec 3) :
    (s.applyEvent (.spiCfg br)).i2cPer = s.i2cPer := rfl
@[simp] theorem State.applyEvent_spiCfg_spiPer (br : BitVec 3) :
    (s.applyEvent (.spiCfg br)).spiPer =
      { s.spiPer with
        mstr := true, ssm := true, ssi := true, br := br, cpol := false, cpha := false, lsbfirst := false,
        frame := .bits8, cr1Other := SpiCr1Other.zero } := rfl
@[simp] theorem State.applyEvent_spiCfg_cs (br : BitVec 3) :
    (s.applyEvent (.spiCfg br)).cs = s.cs := rfl
@[simp] theorem State.applyEvent_spiTx8_i2cPer (b : Byte) :
    (s.applyEvent (.spiTx8 b)).i2cPer = s.i2cPer := rfl
@[simp] theorem State.applyEvent_spiTx8_spiPer (b : Byte) :
    (s.applyEvent (.spiTx8 b)).spiPer =
      { s.spiPer with drTx := b.setWidth 16, drWide := false } := rfl
@[simp] theorem State.applyEvent_spiTx8_cs (b : Byte) :
    (s.applyEvent (.spiTx8 b)).cs = s.cs := rfl
@[simp] theorem State.applyEvent_spiTx16_i2cPer (w : Half) :
    (s.applyEvent (.spiTx16 w)).i2cPer = s.i2cPer := rfl
@[simp] theorem State.applyEvent_spiTx16_spiPer (w : Half) :
    (s.applyEvent (.spiTx16 w)).spiPer =
      { s.spiPer with drTx := w, drWide := true } := rfl
@[simp] theorem State.applyEvent_spiTx16_cs (w : Half) :
    (s.applyEvent (.spiTx16 w)).cs = s.cs := rfl
@[simp] theorem State.applyEvent_spiRx8_i2cPer (v : Byte) :
    (s.applyEvent (.spiRx8 v)).i2cPer = s.i2cPer := rfl
@[simp] theorem State.applyEvent_spiRx8_spiPer (v : Byte) :
    (s.applyEvent (.spiRx8 v)).spiPer =
      { s.spiPer with drRx := v.setWidth 16 } := rfl
@[simp] theorem State.applyEvent_spiRx8_cs (v : Byte) :
    (s.applyEvent (.spiRx8 v)).cs = s.cs := rfl
@[simp] theorem State.applyEvent_spiRx16_i2cPer (v : Half) :
    (s.applyEvent (.spiRx16 v)).i2cPer = s.i2cPer := rfl
@[simp] theorem State.applyEvent_spiRx16_spiPer (v : Half) :
    (s.applyEvent (.spiRx16 v)).spiPer =
      { s.spiPer with drRx := v } := rfl
@[simp] theorem State.applyEvent_spiRx16_cs (v : Half) :
    (s.applyEvent (.spiRx16 v)).cs = s.cs := rfl
@[simp] theorem State.applyEvent_spiPoll_i2cPer (f : SpiFlag) (v : Bool) :
    (s.applyEvent (.spiPoll f v)).i2cPer = s.i2cPer := rfl
@[simp] theorem State.applyEvent_spiPoll_spiPer (f : SpiFlag) (v : Bool) :
    (s.applyEvent (.spiPoll f v)).spiPer =
      { s.spiPer with sr := s.spiPer.sr.observe f v } := rfl
@[simp] theorem State.applyEvent_spiPoll_cs (f : SpiFlag) (v : Bool) :
    (s.applyEvent (.spiPoll f v)).cs = s.cs := rfl
@[simp] theorem State.applyEvent_csHigh_i2cPer :
    (s.applyEvent (.csHigh)).i2cPer = s.i2cPer := rfl
@[simp] theorem State.applyEvent_csHigh_spiPer :
    (s.applyEvent (.csHigh)).spiPer = s.spiPer := rfl
@[simp] theorem State.applyEvent_csHigh_cs :
    (s.applyEvent (.csHigh)).cs =
      .high := rfl
@[simp] theorem State.applyEvent_csLow_i2cPer :
    (s.applyEvent (.csLow)).i2cPer = s.i2cPer := rfl
@[simp] theorem State.applyEvent_csLow_spiPer :
    (s.applyEvent (.csLow)).spiPer = s.spiPer := rfl
@[simp] theorem State.applyEvent_csLow_cs :
    (s.applyEvent (.csLow)).cs =
      .low := rfl

@[simp] theorem State.emit_i2ce_i2c (ev : Event) : (s.emit .i2ce ev).i2c = s.i2c.append ev := by
  simp [State.emit]
@[simp] theorem State.emit_i2ce_spi (ev : Event) : (s.emit .i2ce ev).spi = s.spi := by
  simp [State.emit]
@[simp] theorem State.emit_i2ce_hostOps (ev : Event) : (s.emit .i2ce ev).hostOps = s.hostOps := by
  simp [State.emit]
@[simp] theorem State.emit_i2ce_hostRead (ev : Event) : (s.emit .i2ce ev).hostRead = s.hostRead := by
  simp [State.emit]
@[simp] theorem State.emit_i2ce_turns (ev : Event) : (s.emit .i2ce ev).turns = s.turns := by
  simp [State.emit]
@[simp] theorem State.emit_i2ce_tick (ev : Event) : (s.emit .i2ce ev).tick = s.tick := by
  simp [State.emit]

@[simp] theorem State.emit_spie_i2c (ev : Event) : (s.emit .spie ev).i2c = s.i2c := by
  simp [State.emit]
@[simp] theorem State.emit_spie_spi (ev : Event) : (s.emit .spie ev).spi = s.spi.append ev := by
  simp [State.emit]
@[simp] theorem State.emit_spie_hostOps (ev : Event) : (s.emit .spie ev).hostOps = s.hostOps := by
  simp [State.emit]
@[simp] theorem State.emit_spie_hostRead (ev : Event) : (s.emit .spie ev).hostRead = s.hostRead := by
  simp [State.emit]
@[simp] theorem State.emit_spie_turns (ev : Event) : (s.emit .spie ev).turns = s.turns := by
  simp [State.emit]
@[simp] theorem State.emit_spie_tick (ev : Event) : (s.emit .spie ev).tick = s.tick := by
  simp [State.emit]

@[simp] theorem State.returned_i2c (v : BitVec 32) : (s.returned v).i2c = s.i2c := rfl
@[simp] theorem State.returned_spi (v : BitVec 32) : (s.returned v).spi = s.spi := rfl
@[simp] theorem State.returned_i2cPer (v : BitVec 32) : (s.returned v).i2cPer = s.i2cPer := rfl
@[simp] theorem State.returned_spiPer (v : BitVec 32) : (s.returned v).spiPer = s.spiPer := rfl
@[simp] theorem State.returned_cs (v : BitVec 32) : (s.returned v).cs = s.cs := rfl
@[simp] theorem State.returned_hostOps (v : BitVec 32) : (s.returned v).hostOps = s.hostOps := rfl
@[simp] theorem State.returned_hostRead (v : BitVec 32) : (s.returned v).hostRead = v := rfl
@[simp] theorem State.returned_turns (v : BitVec 32) : (s.returned v).turns = s.turns := rfl
@[simp] theorem State.returned_tick (v : BitVec 32) : (s.returned v).tick = s.tick := rfl

/-- The engine set is the engine read. -/
@[simp] theorem State.engine_setEngine (e : EngineId) (x : Engine) : (s.setEngine e x).engine e = x := by
  cases e <;> rfl

/-- Changing an engine changes what is read of it. -/
@[simp] theorem State.engine_onEngine (e : EngineId) (g : Engine → Engine) :
    (s.onEngine e g).engine e = g (s.engine e) := by
  cases e <;> rfl

/-- Setting one engine leaves the other (10_state R20). -/
theorem State.engine_setEngine_ne {e e' : EngineId} (h : e' ≠ e) (x : Engine) :
    (s.setEngine e x).engine e' = s.engine e' := by
  cases e <;> cases e' <;> first | rfl | exact absurd rfl h

/-- Setting an engine to itself changes nothing. -/
@[simp] theorem State.setEngine_engine (e : EngineId) : s.setEngine e (s.engine e) = s := by
  cases e <;> rfl

@[simp] theorem State.engine_emit (e : EngineId) (ev : Event) : (s.emit e ev).engine e = (s.engine e).append ev := by
  cases e <;> simp

@[simp] theorem State.engine_setPhase (e : EngineId) (p : Phase) :
    (s.setPhase e p).engine e = (s.engine e).setPhase p := by
  cases e <;> rfl

end StateUpdates

end Sys2Proof.Machine
end

