-- ==== Sys2Proof/Laws/Memory.lean ====
section
/-! SUPPORT. BUF: read after write, writes elsewhere, and the canonical form every operation keeps. -/

namespace Sys2Proof.Machine

/-- A read after a write to the same index gives the byte written. -/
@[simp] theorem Memory.read?_write_same (m : Memory) (k : Nat) (v : Byte) :
    (m.write k v).read? k = some v := by
  induction m with
  | nil => simp [Memory.write, Memory.read?]
  | cons c m ih =>
    obtain ⟨a, b⟩ := c
    simp only [Memory.write]
    split
    · simp [Memory.read?]
    · split
      · simp [Memory.read?]
      · simp [Memory.read?, *]

/-- A write leaves every other index alone. -/
theorem Memory.read?_write_ne (m : Memory) {k j : Nat} (v : Byte) (h : j ≠ k) :
    (m.write k v).read? j = m.read? j := by
  induction m with
  | nil => simp [Memory.write, Memory.read?, h]
  | cons c m ih =>
    obtain ⟨a, b⟩ := c
    simp only [Memory.write]
    split
    · simp [Memory.read?, h]
    · split
      · rename_i hk
        subst hk
        simp [Memory.read?, h]
      · simp [Memory.read?, ih]

/-- Whatever held of every listed index and of the new one holds of every index after a write. -/
theorem Memory.all_write (p : Nat → Bool) (m : Memory) (k : Nat) (v : Byte)
    (hm : m.all (fun c => p c.1) = true) (hk : p k = true) :
    (m.write k v).all (fun c => p c.1) = true := by
  induction m with
  | nil => simp [Memory.write, hk]
  | cons c m ih =>
    obtain ⟨a, b⟩ := c
    simp only [List.all_cons, Bool.and_eq_true] at hm
    simp only [Memory.write]
    split
    · simp [hk, hm.1, hm.2]
    · split
      · simp [hk, hm.2]
      · simp only [List.all_cons, Bool.and_eq_true]
        exact ⟨hm.1, ih hm.2⟩

/-- A write of an index of BUF keeps the canonical form. -/
theorem Memory.wf_write (m : Memory) (k : Nat) (v : Byte) (hm : m.wf = true) (hk : k < Config.bufSize) :
    (m.write k v).wf = true := by
  induction m with
  | nil => simp [Memory.write, Memory.wf, hk]
  | cons c m ih =>
    obtain ⟨a, b⟩ := c
    simp only [Memory.wf, Bool.and_eq_true, decide_eq_true_eq] at hm
    obtain ⟨⟨ha, hall⟩, hwf⟩ := hm
    simp only [Memory.write]
    split
    · rename_i hka
      simp only [Memory.wf, Bool.and_eq_true, decide_eq_true_eq, List.all_cons]
      refine ⟨⟨hk, hka, ?_⟩, ⟨ha, hall⟩, hwf⟩
      rw [List.all_eq_true] at hall ⊢
      intro c hc
      have := hall c hc
      simp only [decide_eq_true_eq] at this ⊢
      omega
    · split
      · rename_i hka
        subst hka
        simp [Memory.wf, hk, hall, hwf]
      · rename_i h1 h2
        simp only [Memory.wf, Bool.and_eq_true, decide_eq_true_eq]
        exact ⟨⟨ha, Memory.all_write (fun j => decide (a < j)) m k v hall (by simp; omega)⟩, ih hwf⟩

/-- BUF[k] after it is written. -/
@[simp] theorem Engine.bufByte_setBuf_same (e : EngineId) (x : Engine) (k : Nat) (v : Byte) :
    (x.setBuf k v).bufByte e k = v := by
  simp [Engine.bufByte]

/-- BUF[j] after another byte is written. -/
theorem Engine.bufByte_setBuf_ne (e : EngineId) (x : Engine) {k j : Nat} (v : Byte) (h : j ≠ k) :
    (x.setBuf k v).bufByte e j = x.bufByte e j := by
  simp [Engine.bufByte, Memory.read?_write_ne _ _ h]

/-- BUF[k] depends on the listed cells and the epoch alone. -/
theorem Engine.bufByte_congr (e : EngineId) {x y : Engine} (k : Nat) (hb : x.buf = y.buf)
    (he : x.bufEpoch = y.bufEpoch) : x.bufByte e k = y.bufByte e k := by
  simp [Engine.bufByte, hb, he]

/-- A host store of several bytes keeps the canonical form. -/
theorem storeBytes_wf (k : Nat) (v : BitVec 32) (count : Nat) (x : Engine) (hx : x.buf.wf = true)
    (hk : k + count ≤ Config.bufSize) : (storeBytes k v count x).buf.wf = true := by
  induction count with
  | zero => exact hx
  | succ n ih =>
    simp only [storeBytes, Engine.setBuf_buf]
    exact Memory.wf_write _ _ _ (ih (by omega)) (by omega)

/-- BUF right after reset is canonical. -/
theorem reset_buf_wf : State.reset.i2c.buf.wf = true ∧ State.reset.spi.buf.wf = true := by
  exact ⟨rfl, rfl⟩

end Sys2Proof.Machine
end

