-- ==== Sys2Proof/Laws/Ops.lean ====
section
/-! SUPPORT. What each shared operation can do, said once: later proofs cite these and do not unfold the operation. -/

namespace Sys2Proof.Machine

/-- TIMEOUT_BUDGET(site) is at least 1 (00_scope R9). -/
theorem timeoutBudget_pos (site : Site) : 1 ≤ (Config.timeoutBudget site).toNat := by
  have h := (Config.timeoutBudgetLessOne site).isLt
  simp only [Config.timeoutBudget, BitVec.toNat_ofNat]
  omega

/-- A goto to a label that is no AWAIT leaves the budget. -/
theorem Engine.goto_plain {l : Label} (h : awaitSite l = none) (x : Engine) : x.goto l = { x with mpc := l } := by
  simp [Engine.goto, h]

/-- A goto to an AWAIT loads its budget (10_state R38). -/
theorem Engine.goto_await {l : Label} {site : Site} (h : awaitSite l = some site) (x : Engine) :
    x.goto l = { x with mpc := l, budget := Config.timeoutBudget site } := by
  simp [Engine.goto, h]

/-- A goto changes mpc and at most the budget. -/
theorem Engine.goto_eq (l : Label) (x : Engine) : ∃ b, x.goto l = { x with mpc := l, budget := b } := by
  unfold Engine.goto
  split
  · exact ⟨_, rfl⟩
  · exact ⟨x.budget, rfl⟩

section Frames
variable (s : State)

/-- EMIT: the engine's trace and mpc change, and the peripheral's fields as the event says. -/
theorem emitStep_eq (e : EngineId) (ev : Event) (next : Label) :
    emitStep e ev next s =
      (s.applyEvent ev).setEngine e (((s.engine e).append ev).goto next) := by
  cases e <;> cases ev <;> rfl

/-- A poll event leaves both engines, the other side's peripheral and the CS line (20_memory R77). -/
theorem applyEvent_poll_cs {ev : Event} (h : (∃ f v, ev = .i2cPoll f v) ∨ (∃ f v, ev = .spiPoll f v)) :
    (s.applyEvent ev).cs = s.cs := by
  obtain ⟨f, v, rfl⟩ | ⟨f, v, rfl⟩ := h <;> rfl

/-- A second poll of a flag with the same answer leaves what the first left. -/
theorem applyEvent_poll_again {ev : Event} (h : (∃ f v, ev = .i2cPoll f v) ∨ (∃ f v, ev = .spiPoll f v)) :
    (s.applyEvent ev).applyEvent ev = s.applyEvent ev := by
  obtain ⟨f, v, rfl⟩ | ⟨f, v, rfl⟩ := h <;> cases f <;> rfl

/-- `poll` is the poll event of one flag of either peripheral. -/
def IsPoll (poll : Bool → Event) : Prop :=
  (∃ f, poll = .i2cPoll f) ∨ (∃ f, poll = .spiPoll f)

/-- AWAIT: one poll joins the trace; a 1 goes on, a 0 counts the budget down and at the last poll fails
(40_sequencer R112). Outside the engine only the flag the poll saw changes (log 31). -/
theorem awaitStep_eq (e : EngineId) {poll : Bool → Event} (hp : IsPoll poll) (oc : OutcomeCode) (site : Site)
    (res : BitVec 8) (next failLabel : Label) :
    awaitStep e poll oc site res next failLabel s =
      (s.applyEvent (poll ((s.engine e).env.drawFlag e).1)).setEngine e
        (let x := s.engine e
         let drawn := x.env.drawFlag e
         let y := { x with env := drawn.2, trace := x.trace ++ [poll drawn.1] }
         if drawn.1 then y.goto next else y.missedPoll oc site res failLabel) := by
  obtain ⟨f, rfl⟩ | ⟨f, rfl⟩ := hp <;> cases e <;> simp only [awaitStep] <;> split <;> rfl

/-- AWAIT changes the environment, the trace, mpc, the budget and the failure record of its engine, and the flag its poll
saw, nothing else (40_sequencer R112). -/
theorem awaitStep_frame (e : EngineId) {poll : Bool → Event} (hp : IsPoll poll) (oc : OutcomeCode) (site : Site)
    (res : BitVec 8) (next failLabel : Label) :
    ∃ env trace mpc budget fail, awaitStep e poll oc site res next failLabel s =
      (s.applyEvent (poll ((s.engine e).env.drawFlag e).1)).setEngine e
        { s.engine e with env := env, trace := trace, mpc := mpc, budget := budget, fail := fail } := by
  rw [awaitStep_eq s e hp]
  dsimp only
  split
  · obtain ⟨b, hb⟩ := Engine.goto_eq next
      { s.engine e with
        env := ((s.engine e).env.drawFlag e).2
        trace := (s.engine e).trace ++ [poll ((s.engine e).env.drawFlag e).1] }
    rw [hb]
    exact ⟨_, _, _, _, (s.engine e).fail, rfl⟩
  · unfold Engine.missedPoll Engine.failEntry
    split
    · obtain ⟨b, hb⟩ := Engine.goto_eq failLabel
        { s.engine e with
          budget := 0
          env := ((s.engine e).env.drawFlag e).2
          trace := (s.engine e).trace ++ [poll ((s.engine e).env.drawFlag e).1]
          fail := ⟨oc, some site, res⟩ }
      dsimp only at hb ⊢
      rw [hb]
      exact ⟨_, _, _, _, _, rfl⟩
    · exact ⟨_, _, _, _, (s.engine e).fail, rfl⟩

/-- A poll that returned 0: either the budget counts down and mpc stays, or the wait fails (40_sequencer R112). -/
theorem missedPoll_cases (oc : OutcomeCode) (site : Site) (res : BitVec 8) (failLabel : Label) (x : Engine) :
    (x.budget.toNat ≤ 1 ∧
      x.missedPoll oc site res failLabel =
        ({ x with budget := 0, fail := ⟨oc, some site, res⟩ }).goto failLabel) ∨
    (1 < x.budget.toNat ∧
      x.missedPoll oc site res failLabel = { x with budget := x.budget - 1#32 } ∧
      (x.budget - 1#32).toNat = x.budget.toNat - 1) := by
  unfold Engine.missedPoll
  split
  · exact .inl ⟨‹_›, rfl⟩
  · refine .inr ⟨by omega, rfl, ?_⟩
    have h := x.budget.isLt
    rw [BitVec.toNat_sub]
    simp only [BitVec.toNat_ofNat]
    omega

/-- RX(8) -> BUF[idx], where it answers a next state (40_sequencer R115). -/
theorem rxStoreStep_next {e : EngineId} {ev : Byte → Event} {again done : Label} {t : State}
    (h : rxStoreStep e ev again done s = .next t) :
    (s.engine e).idx.toNat < Config.bufSize ∧
    t = (rxByte e ev s).onEngine e fun x => (x.setBuf x.idx.toNat (x.tmp.setWidth 8)).advance again done := by
  unfold rxStoreStep at h
  split at h
  · exact ⟨‹_›, by simpa using h.symm⟩
  · cases h

/-- RX(8) -> BUF[idx] goes on while idx is an index of BUF. -/
theorem rxStoreStep_of_lt {e : EngineId} (ev : Byte → Event) (again done : Label)
    (h : (s.engine e).idx.toNat < Config.bufSize) :
    rxStoreStep e ev again done s =
      .next ((rxByte e ev s).onEngine e fun x => (x.setBuf x.idx.toNat (x.tmp.setWidth 8)).advance again done) := by
  simp [rxStoreStep, h]

/-- EMIT `I2C_TX(BUF[idx])`, where it answers a next state (41_i2c R142, WR4). -/
theorem txPayloadStep_next {e : EngineId} {again done : Label} {t : State}
    (h : txPayloadStep e again done s = .next t) :
    (s.engine e).idx.toNat < Config.bufSize ∧
    t = ((s.setEngine e (payloadByte e (s.engine e)).2).emit e (.i2cTx (payloadByte e (s.engine e)).1)).onEngine e
      (Engine.advance again done) := by
  unfold txPayloadStep at h
  split at h
  · exact ⟨‹_›, by simpa using h.symm⟩
  · cases h

/-- With no contested value the byte sent is BUF[idx] and the engine stays as it is. -/
theorem payloadByte_uncontested {e : EngineId} {x : Engine} (h : x.contested = []) :
    payloadByte e x = (x.bufByte e x.idx.toNat, x) := by
  simp [payloadByte, h]

end Frames

/-- Fetching the payload byte changes the environment alone. -/
theorem payloadByte_engine (e : EngineId) (x : Engine) :
    ∃ env, (payloadByte e x).2 = { x with env := env } := by
  unfold payloadByte
  dsimp only
  split
  · exact ⟨x.env, rfl⟩
  · exact ⟨_, rfl⟩

/-- idx + 1 and the loop test (41_i2c R141, R142, 42_spi R193). -/
theorem Engine.advance_eq (again done : Label) (x : Engine) :
    x.advance again done =
      ({ x with idx := x.idx + 1#9 }).goto (if morePayload x.latch.n (x.idx + 1#9) then again else done) := rfl

/-- An accepted command (40_sequencer R110, case 3) or a rejected one (30_encoding R94). -/
theorem issueCommand_cases (i : Instr) (first : Label) (s : State) :
    (i.wellFormed = true ∧ issueCommand i first s = s.onEngine i.engine (Engine.accept i first)) ∨
    (i.wellFormed = false ∧ issueCommand i first s = rejectCommand i.engine s) := by
  unfold issueCommand
  cases h : i.wellFormed
  · exact .inr ⟨rfl, by simp⟩
  · exact .inl ⟨rfl, by simp⟩

/-- RX -> tmp: the value drawn, cut to the width of the read, stays in tmp and joins the trace (40_sequencer R115). -/
theorem rxValue_eq (e : EngineId) (cut : BitVec 32 → BitVec 16) (ev : BitVec 16 → Event) (s : State) :
    rxValue e cut ev s =
      (s.applyEvent (ev (cut ((s.engine e).env.drawValue e).1))).setEngine e
        { s.engine e with
          env := ((s.engine e).env.drawValue e).2
          tmp := cut ((s.engine e).env.drawValue e).1
          trace := (s.engine e).trace ++ [ev (cut ((s.engine e).env.drawValue e).1)] } := by
  cases e <;> simp only [rxValue] <;>
    cases h : ev (cut (Environment.drawValue _ _).1) <;> simp only [State.emit] <;> rfl

/-- FINISH(Success) of a command that returns no value (40_sequencer R116). -/
theorem finishSuccess_eq (e : EngineId) (s : State) :
    finishSuccess e s = s.setEngine e ((s.engine e).finish ⟨.success, none, 0, (s.engine e).result.rdata⟩) := rfl

/-- FINISH(Success) of an INIT command (40_sequencer R116, 10_state R27). -/
theorem finishInit_eq (e : EngineId) (s : State) :
    finishInit e s =
      s.setEngine e
        { (s.engine e).finish ⟨.success, none, 0, (s.engine e).result.rdata⟩ with
          status := { (s.engine e).status with valid := true, busy := false, init := true } } := by
  cases e <;> rfl

/-- FINISH(Success) of an exchange (40_sequencer R116, 10_state R35). -/
theorem finishExchange_eq (e : EngineId) (rdata : BitVec 16) (s : State) :
    finishExchange e rdata s = s.setEngine e ((s.engine e).finish ⟨.success, none, 0, rdata⟩) := rfl

/-- FINISH(F) of a command other than an exchange (40_sequencer R116). -/
theorem finishFailed_eq (e : EngineId) (s : State) :
    finishFailed e s =
      s.setEngine e ((s.engine e).finish
        ⟨(s.engine e).fail.oc, (s.engine e).fail.site, (s.engine e).fail.res, (s.engine e).result.rdata⟩) := rfl

/-- FINISH(F) of an exchange: RDATA is a draw (40_sequencer R116, 10_state R35). -/
theorem finishFailedExchange_eq (e : EngineId) (s : State) :
    finishFailedExchange e s =
      s.setEngine e (({ s.engine e with env := ((s.engine e).env.drawValue e).2 }).finish
        ⟨(s.engine e).fail.oc, (s.engine e).fail.site, (s.engine e).fail.res,
          ((s.engine e).env.drawValue e).1.setWidth 16⟩) := rfl

/-- The failure entry saves the record and moves mpc, nothing else (60_exceptions R238). A FAIL label is no AWAIT. -/
theorem failEntry_eq (oc : OutcomeCode) (site : Site) (res : BitVec 8) {l : Label} (h : awaitSite l = none)
    (x : Engine) : x.failEntry oc site res l = { x with fail := ⟨oc, some site, res⟩, mpc := l } := by
  simp [Engine.failEntry, Engine.goto, h]

/-- Losing the specified behaviour leaves the fault set, the other engine and the host's side (60_exceptions R230). -/
theorem unspecify_frame (e : EngineId) (s : State) :
    ((s.unspecify e).engine e).faults = (s.engine e).faults ∧ ((s.unspecify e).engine e).buf = [] ∧
      (∀ e', e' ≠ e → (s.unspecify e).engine e' = s.engine e') ∧
      (s.unspecify e).hostOps = s.hostOps ∧ (s.unspecify e).hostRead = s.hostRead ∧
      (s.unspecify e).turns = s.turns ∧ (s.unspecify e).tick = s.tick := by
  cases e <;> refine ⟨rfl, rfl, ?_, rfl, rfl, rfl, rfl⟩ <;> intro e' he <;> cases e' <;>
    first | rfl | exact absurd rfl he

/-- `raise HostFault(kind)` adds the kind and removes none (10_state R39). -/
theorem record_has (f : FaultSet) (k k' : HostFaultKind) :
    (f.record k).has k' = (decide (k = k') || f.has k') := by
  cases k <;> cases k' <;> simp [FaultSet.record, FaultSet.has]

end Sys2Proof.Machine
end

