-- ==== Sys2Proof/Laws/HostAccess.lean ====
section
/-! SUPPORT. What a host access, a sequencer's turn and a step can do, said once. -/

namespace Sys2Proof.Machine

/-- Where an access goes, by the ranges of 20_memory R70 and R71. -/
theorem regionOf_buf {off : BitVec 9} {size : AccessSize} (h : 0x100 ≤ off.toNat) (ha : off.toNat % size.bytes = 0) :
    regionOf off size = .buf := by
  unfold regionOf
  simp only [show ¬ off.toNat < 0x00C by omega, show ¬ off.toNat < 0x100 by omega, if_false, ha, if_true]

theorem regionOf_reserved {off : BitVec 9} (size : AccessSize) (h : 0x00C ≤ off.toNat) (h' : off.toNat < 0x100) :
    regionOf off size = .reserved := by
  unfold regionOf
  simp only [show ¬ off.toNat < 0x00C by omega, if_false, h', if_true]

theorem regionOf_illegal {off : BitVec 9} {size : AccessSize}
    (h : (off.toNat < 0x00C ∧ ¬ (size = .four ∧ off.toNat % 4 = 0)) ∨
      (0x100 ≤ off.toNat ∧ off.toNat % size.bytes ≠ 0)) : regionOf off size = .illegal := by
  unfold regionOf
  obtain ⟨h, h'⟩ | ⟨h, h'⟩ := h
  · simp only [h, if_true, h', if_false]
  · simp only [show ¬ off.toNat < 0x00C by omega, show ¬ off.toNat < 0x100 by omega, if_false, h']

/-- An aligned access inside BUF ends inside BUF. -/
theorem buf_access_ends {off : BitVec 9} {size : AccessSize} (ha : off.toNat % size.bytes = 0) :
    off.toNat - 0x100 + size.bytes ≤ Config.bufSize := by
  have h := off.isLt
  cases size <;> simp only [AccessSize.bytes, Config.bufSize] at * <;> omega

/-- A value cut to an access keeps the bytes of the access and has 0 above them. -/
theorem cut_byte (size : AccessSize) (v : BitVec 32) {j : Nat} (h : j < 4) :
    (size.cut v).extractLsb' (8 * j) 8 = if j < size.bytes then v.extractLsb' (8 * j) 8 else 0 := by
  obtain rfl | rfl | rfl | rfl : j = 0 ∨ j = 1 ∨ j = 2 ∨ j = 3 := by omega
  all_goals
    cases size <;> ext k hk <;>
      simp [AccessSize.cut, AccessSize.bytes, BitVec.getElem_extractLsb', BitVec.getLsbD_setWidth] <;> intros <;>
      first | omega | simp [show k < 32 by omega, show 8 + k < 32 by omega,
         show k < 16 by omega, show 8 + k < 16 by omega, hk]

/-- A host read of a register changes nothing but what the host holds (20_memory R77). -/
theorem memRead_register (e : EngineId) (s : State) (h : (s.engine e).faults.cmdWhileBusy = false) :
    memRead e 0x000#9 .four s = s.returned (s.engine e).cmd ∧
      memRead e 0x004#9 .four s = s.returned (s.engine e).status.word ∧
      memRead e 0x008#9 .four s = s.returned (s.engine e).result.word := by
  refine ⟨?_, ?_, ?_⟩ <;> simp [memRead, h, regionOf]

/-- What a command write can do (40_sequencer R110): CmdWhileBusy, a rejection, or one step of exec. -/
theorem writeCmd_cases (e : EngineId) (v : BitVec 32) (s : State) :
    ((s.engine e).status.busy = true ∧ writeCmd e v s = .next (commandWhileBusy e s)) ∨
    ((s.engine e).status.busy = false ∧ ∃ r, decode e v = .error r ∧ writeCmd e v s = .next (rejectCommand e s)) ∨
    ((s.engine e).status.busy = false ∧ ∃ i, decode e v = .ok i ∧ writeCmd e v s = exec i s) := by
  unfold writeCmd
  cases hb : (s.engine e).status.busy
  · cases hd : decode e v with
    | error r => exact .inr (.inl ⟨rfl, r, rfl, by simp⟩)
    | ok i => exact .inr (.inr ⟨rfl, i, rfl, by simp⟩)
  · exact .inl ⟨rfl, by simp⟩

/-- What a sequencer's turn can do (40_sequencer R111). -/
theorem sequencerTurn_cases (e : EngineId) (s : State) :
    ((s.engine e).faults.cmdWhileBusy = true ∧ sequencerTurn e s = .next (s.unspecify e)) ∨
    ((s.engine e).faults.cmdWhileBusy = false ∧ (s.engine e).status.busy = false ∧ sequencerTurn e s = .next s) ∨
    ((s.engine e).faults.cmdWhileBusy = false ∧ (s.engine e).status.busy = true ∧
      ∃ i, runningCommand e (s.engine e).latch = some i ∧ sequencerTurn e s = exec i s) ∨
    ((s.engine e).faults.cmdWhileBusy = false ∧ (s.engine e).status.busy = true ∧
      runningCommand e (s.engine e).latch = none ∧ sequencerTurn e s = .fault (.strayLabel e)) := by
  unfold sequencerTurn
  cases hf : (s.engine e).faults.cmdWhileBusy
  · cases hb : (s.engine e).status.busy
    · exact .inr (.inl ⟨rfl, rfl, by simp [hf, hb]⟩)
    · cases hr : runningCommand e (s.engine e).latch with
      | none => exact .inr (.inr (.inr ⟨rfl, rfl, rfl, by simp [hf, hb, hr]⟩))
      | some i => exact .inr (.inr (.inl ⟨rfl, rfl, i, rfl, by simp [hf, hb, hr]⟩))
  · exact .inl ⟨rfl, by simp [hf]⟩

/-- The command a latch holds belongs to its engine (30_encoding R95). -/
theorem runningCommand_engine {e : EngineId} {l : Latches} {i : Instr} (h : runningCommand e l = some i) :
    i.engine = e := by
  cases e <;> simp only [runningCommand] at h <;> split at h <;>
    first
      | (obtain rfl := Option.some.inj h; rfl)
      | (split at h <;>
          first
            | (obtain rfl := Option.some.inj h; rfl)
            | (split at h <;>
                first
                  | (obtain rfl := Option.some.inj h; rfl)
                  | (split at h <;> first | (obtain rfl := Option.some.inj h; rfl) | cases h)
                  | cases h))

end Sys2Proof.Machine
end

