-- ==== Sys2Proof/Laws/PerInstr.lean ====
section
/-! SUPPORT. The per-instruction family EncodedOpcode: an instruction's word carries the opcode of its row, and by OP[3]
the engine it belongs to (30_encoding R91, R95). One lemma per constructor. -/

namespace Sys2Proof.Laws

/-- The OP field of an instruction's word, and the engine that OP[3] names (30_encoding R95). -/
def EncodedOpcode.Statement (i : Instr) : Prop :=
  opField (encode i) = i.opcode ∧ engineOfWord (encode i) = i.engine

theorem EncodedOpcode.i2cInit : EncodedOpcode.Statement .i2cInit := ⟨rfl, rfl⟩

theorem EncodedOpcode.i2cRead (dev : BitVec 7) (reg n : BitVec 8) :
    EncodedOpcode.Statement (.i2cRead dev reg n) := by
  constructor
  · ext k hk
    interval_cases k <;> simp [opField, encode, Instr.opcode]
  · simp [engineOfWord, encode, Instr.engine]

theorem EncodedOpcode.i2cWrite (dev : BitVec 7) (reg n : BitVec 8) :
    EncodedOpcode.Statement (.i2cWrite dev reg n) := by
  constructor
  · ext k hk
    interval_cases k <;> simp [opField, encode, Instr.opcode]
  · simp [engineOfWord, encode, Instr.engine]

theorem EncodedOpcode.spiInit : EncodedOpcode.Statement .spiInit := ⟨rfl, rfl⟩

theorem EncodedOpcode.spiSr8 (data : BitVec 8) : EncodedOpcode.Statement (.spiSr8 data) := by
  constructor
  · ext k hk
    interval_cases k <;> simp [opField, encode, Instr.opcode]
  · simp [engineOfWord, encode, Instr.engine]

theorem EncodedOpcode.spiSr16 (data : BitVec 16) : EncodedOpcode.Statement (.spiSr16 data) := by
  constructor
  · ext k hk
    interval_cases k <;> simp [opField, encode, Instr.opcode]
  · simp [engineOfWord, encode, Instr.engine]

theorem EncodedOpcode.spiBurst (reg n : BitVec 8) : EncodedOpcode.Statement (.spiBurst reg n) := by
  constructor
  · ext k hk
    interval_cases k <;> simp [opField, encode, Instr.opcode]
  · simp [engineOfWord, encode, Instr.engine]

end Sys2Proof.Laws
end

