-- ==== Sys2Proof/Laws/Regmap.lean ====
section
/-! SUPPORT. The bits of a word that is put together from flags and fields (10_state R45, R52). -/

namespace Sys2Proof.Machine

/-- A flag in a word is one bit of it. -/
theorem bitAt_getLsbD (b : Bool) (pos k : Nat) (h : k < 32) : (bitAt b pos).getLsbD k = (decide (k = pos) && b) := by
  unfold bitAt flagWord
  cases b
  · simp
  · simp only [if_true, BitVec.getLsbD_shiftLeft, h, decide_true, Bool.true_and, Bool.and_true, BitVec.getLsbD_one]
    rw [Bool.eq_iff_iff]
    simp
    omega

/-- A field in a word is its own bits, moved up. -/
theorem fieldAt_getLsbD {w : Nat} (v : BitVec w) (pos k : Nat) (h : k < 32) :
    (fieldAt v pos).getLsbD k = (decide (pos ≤ k) && v.getLsbD (k - pos)) := by
  unfold fieldAt
  simp only [BitVec.getLsbD_shiftLeft, BitVec.getLsbD_setWidth, h, decide_true, Bool.true_and]
  by_cases h' : k < pos
  · simp [h', show ¬ pos ≤ k by omega]
  · simp [h', show pos ≤ k by omega, show k - pos < 32 by omega]

/-- The bits of a word at a place. -/
theorem FieldPlace.of_getLsbD (p : FieldPlace) (w : BitVec 32) (k : Nat) (h : k < 32) :
    (p.of w).getLsbD k = (decide (k < p.width) && w.getLsbD (p.pos + k)) := by
  simp only [FieldPlace.of, BitVec.getLsbD_setWidth, BitVec.getLsbD_ushiftRight, h, decide_true, Bool.true_and]

/-- A flag as a word is bit 0 of it. -/
theorem flagWord_getLsbD (b : Bool) (k : Nat) : (flagWord b).getLsbD k = (decide (k = 0) && b) := by
  unfold flagWord
  cases b
  · simp
  · simp [BitVec.getLsbD_one]

end Sys2Proof.Machine
end

