-- ==== Sys2Proof/Laws/Runs.lean ====
section
/-! SUPPORT. Runs of one sequencer: how they join, and what a wait does while every poll returns 0. -/

namespace Sys2Proof.Machine

/-- A run of `j + k` turns is a run of `j` turns and then one of `k`. -/
theorem sequencerRun_add {e : EngineId} {j : Nat} {s t : State} (h : sequencerRun e j s = .next t) (k : Nat) :
    sequencerRun e (j + k) s = sequencerRun e k t := by
  induction j generalizing s with
  | zero =>
    simp only [sequencerRun, Host.Outcome.next.injEq] at h
    simp [h]
  | succ j ih =>
    rw [Nat.succ_add]
    simp only [sequencerRun] at h ⊢
    split at h
    · exact ih h
    · cases h
    · cases h

/-- The engine `x` at a wait: `q` its phase, `b` its budget, `fs` the poll answers it will get, `tr` its trace. -/
def Engine.atWait (x : Engine) (q : Phase) (b : BitVec 32) (fs : List Bool) (tr : List Event) : Engine :=
  { x with
    status := { x.status with phase := q }
    budget := b
    env := { x.env with flags := fs }
    trace := tr }

/-- What one turn at a wait does where the poll returns 0, for a state `s` and its engine's phase `p` at this wait, the
first time and again: the poll joins the trace, the flag is seen 0, and the wait goes on or fails. -/
def MissesAt (e : EngineId) (s : State) (p : Phase) (poll : Event) (site : Site) (res : BitVec 8)
    (failLabel : Label) : Prop :=
  ∀ q, q = (s.engine e).status.phase ∨ q = p → ∀ u, u = s ∨ u = s.applyEvent poll → ∀ b fs tr,
    sequencerTurn e (u.setEngine e ((s.engine e).atWait q b (false :: fs) tr)) =
      .next ((s.applyEvent poll).setEngine e
        (((s.engine e).atWait p b fs (tr ++ [poll])).missedPoll (siteOutcome site) site res failLabel))

/-- A wait entered with budget `k + 1` and answered 0 each time polls `k + 1` times and fails (40_sequencer R112). -/
theorem sequencerRun_misses {e : EngineId} {s : State} {p : Phase} {poll : Event} {site : Site} {res : BitVec 8}
    {failLabel : Label} (h : MissesAt e s p poll site res failLabel) (k : Nat) :
    ∀ (q : Phase), q = (s.engine e).status.phase ∨ q = p → ∀ u, u = s ∨ u = s.applyEvent poll →
      ∀ (b : BitVec 32) (fs : List Bool) (tr : List Event), b.toNat = k + 1 →
      sequencerRun e (k + 1)
          (u.setEngine e ((s.engine e).atWait q b (List.replicate (k + 1) false ++ fs) tr)) =
        .next ((s.applyEvent poll).setEngine e
          (((s.engine e).atWait p 0 fs (tr ++ List.replicate (k + 1) poll)).failEntry (siteOutcome site) site res
            failLabel)) := by
  induction k with
  | zero =>
    intro q hq u hu b fs tr hb
    have h1 := h q hq u hu b fs tr
    simp only [sequencerRun, List.replicate, List.nil_append, List.cons_append, h1]
    unfold Engine.missedPoll
    simp [Engine.atWait, hb]
  | succ k ih =>
    intro q hq u hu b fs tr hb
    have h1 := h q hq u hu b (List.replicate (k + 1) false ++ fs) tr
    rw [sequencerRun, List.replicate_succ, List.cons_append, h1]
    have hb' : ¬ b.toNat ≤ 1 := by omega
    have hn : (b - 1#32).toNat = k + 1 := by
      have := b.isLt
      rw [BitVec.toNat_sub]
      simp only [BitVec.toNat_ofNat]
      omega
    have h2 := ih p (.inr rfl) _ (.inr rfl) (b - 1#32) fs (tr ++ [poll]) hn
    unfold Engine.missedPoll
    simp only [Engine.atWait, hb', if_false] at h2 ⊢
    rw [h2]
    simp [List.replicate_succ]

/-- The number of polls a wait of a site makes at most: TIMEOUT_BUDGET(site) (40_sequencer R113). -/
abbrev polls (site : Site) : Nat := (Config.timeoutBudget site).toNat

/-- A command whose run reaches a wait that then gets 0 from every poll ends in `t`, where the rest of the run from the
failure entry does. -/
theorem commandRun_fails {i : Instr} {s s0 w t : State} {j m : Nat} {p : Phase} {poll : Event} {site : Site}
    {res : BitVec 8} {failLabel : Label}
    (h0 : exec i s = .next s0) (h1 : sequencerRun i.engine j s0 = .next w)
    (hb : (w.engine i.engine).budget = Config.timeoutBudget site)
    (hf : (w.engine i.engine).env.flags = List.replicate (polls site) false)
    (hm : MissesAt i.engine w p poll site res failLabel)
    (h3 : sequencerRun i.engine m
      ((w.applyEvent poll).setEngine i.engine
        (((w.engine i.engine).atWait p 0 []
          ((w.engine i.engine).trace ++ List.replicate (polls site) poll)).failEntry (siteOutcome site) site res
            failLabel)) = .next t) :
    commandRun i (j + (polls site + m)) s = .next t := by
  obtain ⟨k, hk⟩ : ∃ k, polls site = k + 1 :=
    ⟨polls site - 1, by have := timeoutBudget_pos site; unfold polls; omega⟩
  simp only [commandRun, h0]
  rw [sequencerRun_add h1]
  have hw : w = w.setEngine i.engine ((w.engine i.engine).atWait (w.engine i.engine).status.phase
      (w.engine i.engine).budget (List.replicate (k + 1) false ++ []) (w.engine i.engine).trace) := by
    rw [hk] at hf
    rw [List.append_nil, ← hf]
    exact (State.setEngine_engine w i.engine).symm
  have h2 := sequencerRun_misses hm k (w.engine i.engine).status.phase (.inl rfl) w (.inl rfl) (w.engine i.engine).budget []
    (w.engine i.engine).trace (by rw [hb]; exact hk)
  rw [← hw] at h2
  rw [hk] at h3 ⊢
  rw [sequencerRun_add h2]
  exact h3

/-! ### The optional contracts (10_state R48, R55) -/

/-- A trace in two parts at the reference I2C peripheral. -/
theorem RefI2c.run_append (r : RefI2c) (a b : List Event) : r.run (a ++ b) = (r.run a).bind fun r' => r'.run b := by
  induction a generalizing r with
  | nil => rfl
  | cons ev a ih =>
    simp only [List.cons_append, RefI2c.run]
    cases r.after ev with
    | none => rfl
    | some r' => exact ih r'

/-- A trace in two parts at the reference SPI peripheral. -/
theorem RefSpi.run_append (echo : Bool) (r : RefSpi) (a b : List Event) :
    r.run echo (a ++ b) = (r.run echo a).bind fun r' => r'.run echo b := by
  induction a generalizing r with
  | nil => rfl
  | cons ev a ih =>
    simp only [List.cons_append, RefSpi.run]
    cases r.after echo ev with
    | none => rfl
    | some r' => exact ih r'

/-- A poll that returns 0 is admitted of a flag that is not 1, and changes nothing. -/
theorem RefFlag.poll_false {f : RefFlag} (h : f ≠ .high) : f.poll false = some f := by
  cases f
  · rfl
  · rfl
  · exact absurd rfl h

/-- A poll that returns 1 is admitted of a flag that is not 0, which is 1 from then on. -/
theorem RefFlag.poll_true {f : RefFlag} (h : f ≠ .low) : f.poll true = some .high := by
  cases f
  · exact absurd rfl h
  · rfl
  · rfl

/-- What a poll can do: the flag was not 1 and 0 was seen, or was not 0 and 1 was seen. -/
theorem RefFlag.poll_some {f x : RefFlag} {v : Bool} (h : f.poll v = some x) :
    (v = false ∧ f ≠ .high ∧ x = f) ∨ (v = true ∧ f ≠ .low ∧ x = .high) := by
  cases f <;> cases v <;> simp only [RefFlag.poll] at h <;> cases h <;> simp

/-- A flag that is settled and not 0 is 1. -/
theorem RefFlag.settle_eq_high {f : RefFlag} (h : f ≠ .low) : f.settle = .high := by
  cases f
  · exact absurd rfl h
  · rfl
  · rfl

/-- After a START a STOPF that was due or 1 is not seen 0 (10_state R48 (g)). -/
theorem RefI2c.restart_stopf {r : RefI2c} (h : r.stopf ≠ .low) (rdWrn : Bool) (nbytes : Nat) (autoend : Bool) :
    (r.restart rdWrn nbytes autoend).stopf = .high := by
  have h' := RefFlag.settle_eq_high h
  unfold RefI2c.restart
  split
  · split
    · simp only [RefI2c.arrive, RefI2c.ended]
      split <;> (try split) <;> (try split) <;> simp [h', RefFlag.raise]
    · exact h'
  · simp [RefI2c.nacked, h', RefFlag.raise]

/-- A poll of the reference I2C peripheral that returns 0 changes nothing. -/
theorem RefI2c.after_missed {r : RefI2c} {f : I2cFlag} (h : r.flag f ≠ .high) :
    r.after (.i2cPoll f false) = some r := by
  cases f <;> simp_all [RefI2c.after, RefI2c.afterPoll, RefI2c.flag, RefI2c.withFlag, RefFlag.poll_false]

/-- Polls that return 0 leave the reference I2C peripheral as it is. -/
theorem RefI2c.run_missed {r : RefI2c} {f : I2cFlag} (h : r.flag f ≠ .high) (k : Nat) :
    r.run (List.replicate k (.i2cPoll f false)) = some r := by
  induction k with
  | zero => rfl
  | succ k ih =>
    rw [List.replicate_succ, RefI2c.run, RefI2c.after_missed h]
    exact ih

/-- A closed transfer (after a NACK or a STOP) sets TXIS for no byte sent, until the next START (10_state R48 (a), (b)). -/
theorem RefI2c.send_closed {r : RefI2c} (h : r.closed = true) : r.send = { r with txis := .low } := by
  simp [RefI2c.send, h]

end Sys2Proof.Machine
end

