-- ==== Sys2Proof/Tests/Slice0.lean ====
section
/-! SUPPORT. Tests: the well-formedness smoke, words written out from 30_encoding R92 and R97, single steps with values
from 95_test_vectors, and for each obligation with hypotheses a witness that meets them. -/

namespace Sys2Proof.Tests

open Sys2Proof Sys2Proof.Machine

/-! ### States -/

/-- STATUS = 0x3A, the conventions of 95_test_vectors. -/
def initialised : Status := ⟨false, true, false, true, .completion, false⟩

/-- I2CE after its INIT command, with the answers the environment has ready. -/
def i2cReady (flags : List Bool) (values : List (BitVec 32)) : State :=
  { State.reset with i2c := { Engine.reset with status := initialised, env := ⟨flags, values, 0⟩ } }

/-- SPIE after its INIT command, with the answers the environment has ready. -/
def spiReady (flags : List Bool) (values : List (BitVec 32)) : State :=
  { State.reset with
    spi := { Engine.reset with status := initialised, env := ⟨flags, values, 0⟩ }
    cs := .high }

/-- An engine in the middle of the command `i`, at a label. -/
def runningAt (i : Instr) (l : Label) (idx : BitVec 9) (budget : BitVec 32) (flags : List Bool)
    (values : List (BitVec 32)) : Engine :=
  { Engine.reset with
    cmd := encode i
    status := { initialised with busy := true, csdrv := selectedAt l }
    mpc := l
    idx := idx
    budget := budget
    latch := latchOperands i ⟨0, 0, 0, 0, 0⟩
    fail := ⟨.dataPhaseTimeout, some .s3, 1⟩
    env := ⟨flags, values, 0⟩ }

/-- I2CE in the middle of a command. -/
def i2cAt (i : Instr) (l : Label) (idx : BitVec 9) (budget : BitVec 32) (flags : List Bool)
    (values : List (BitVec 32)) : State :=
  { State.reset with i2c := runningAt i l idx budget flags values }

/-- SPIE in the middle of a command. -/
def spiAt (i : Instr) (l : Label) (idx : BitVec 9) (budget : BitVec 32) (flags : List Bool)
    (values : List (BitVec 32)) : State :=
  { State.reset with spi := runningAt i l idx budget flags values, cs := .low }

/-- The state an answer carries, or the reset state. -/
def stateOf : Answer → State
  | .next t => t
  | .fault _ => State.reset
  | .refused _ => State.reset

/-- The state after a command and `k` turns of its sequencer. -/
abbrev after (i : Instr) (k : Nat) (s : State) : State := stateOf (commandRun i k s)

/-! ### Well-formedness: each check refuses an ill-formed term (30_encoding R93) -/

theorem test_read_count_zero : rangeError (.i2cRead 0x76 0x00 0) = some .countZero := by decide
theorem test_write_count_zero : rangeError (.i2cWrite 0x76 0x00 0) = some .countZero := by decide
theorem test_write_count_255 : rangeError (.i2cWrite 0x76 0x00 255) = some .countAboveNbytesMax := by decide
theorem test_burst_count_zero : rangeError (.spiBurst 0x04 0) = some .countZero := by decide
theorem test_counts_in_range :
    Instr.wellFormed (.i2cRead 0x7F 0xFF 255) = true ∧ Instr.wellFormed (.i2cWrite 0x76 0xF4 254) = true ∧
    Instr.wellFormed (.spiBurst 0x00 255) = true ∧ Instr.wellFormed (.i2cRead 0x00 0x00 1) = true := by decide

/-! ### Words written out field by field (30_encoding R92, R97) -/

theorem test_decode_i2cInit : decode .i2ce (0b0000000000000000000000000000#28 ++ 0b0001#4) = .ok .i2cInit := by
  decide
theorem test_decode_i2cRead :
    decode .i2ce (0b00000011#8 ++ 0b00010000#8 ++ 0b0#1 ++ 0b1010000#7 ++ 0b0000#4 ++ 0b0010#4) =
      .ok (.i2cRead 0x50 0x10 3) := by decide
theorem test_decode_i2cWrite :
    decode .i2ce (0b11111110#8 ++ 0b11110100#8 ++ 0b0#1 ++ 0b1110110#7 ++ 0b0000#4 ++ 0b0011#4) =
      .ok (.i2cWrite 0x76 0xF4 254) := by decide
theorem test_decode_spiInit : decode .spie (0b0000000000000000000000000000#28 ++ 0b1001#4) = .ok .spiInit := by
  decide
theorem test_decode_spiSr8 :
    decode .spie (0b00000000#8 ++ 0b10100101#8 ++ 0b000000000000#12 ++ 0b1010#4) = .ok (.spiSr8 0xA5) := by decide
theorem test_decode_spiSr16 :
    decode .spie (0b1011111011101111#16 ++ 0b000000000000#12 ++ 0b1011#4) = .ok (.spiSr16 0xBEEF) := by decide
theorem test_decode_spiBurst :
    decode .spie (0b00000110#8 ++ 0b11110111#8 ++ 0b000000000000#12 ++ 0b1100#4) = .ok (.spiBurst 0xF7 6) := by
  decide

/-- 95_test_vectors T1: the order of the checks. -/
theorem test_reject_order :
    decode .i2ce 0x00000010 = .error .opcode ∧ decode .i2ce 0x00000101 = .error .reservedBits ∧
    decode .spie 0x00000101 = .error .opcode ∧ decode .i2ce 0x00000012 = .error .reservedBits ∧
    decode .spie 0x00A5800A = .error .reservedBits ∧ decode .spie 0x0000100B = .error .reservedBits ∧
    decode .spie 0x0104800C = .error .reservedBits ∧ decode .i2ce 0x0000000F = .error .opcode := by decide

/-- The table's words, numbered as the table numbers them. -/
theorem test_table_words :
    decodeTableWord 32 0x00000001 = some .i2cInit ∧ decodeTableWord 32 0x02007602 = some (.i2cRead 0x76 0 2) ∧
    decodeTableWord 32 0x01F47603 = some (.i2cWrite 0x76 0xF4 1) ∧ decodeTableWord 32 0x00000009 = some .spiInit ∧
    decodeTableWord 32 0x00A5000A = some (.spiSr8 0xA5) ∧ decodeTableWord 32 0x1234000B = some (.spiSr16 0x1234) ∧
    decodeTableWord 32 0x0304000C = some (.spiBurst 0x04 3) ∧ decodeTableWord 32 0x00000000 = none := by decide

/-! ### Single steps -/

/-- 95_test_vectors V10: the first event of I2C_INIT. -/
theorem test_i2cInit_first_event :
    (stateOf (exec .i2cInit (i2cAt .i2cInit .in0 0 0 [] []))).i2c.trace = [.i2cClkSel Config.i2cClkSrc] := rfl

/-- 95_test_vectors V10: FINISH of I2C_INIT leaves INIT and VALID set. -/
theorem test_i2cInit_finish :
    (stateOf (exec .i2cInit (i2cAt .i2cInit .in4 0 0 [] []))).i2c.status.init = true ∧
    (stateOf (exec .i2cInit (i2cAt .i2cInit .in4 0 0 [] []))).i2c.status.busy = false := ⟨rfl, rfl⟩

/-- 95_test_vectors V4: the two transfer-control writes of `I2C_READ 0x50, 0x10, 3`. -/
theorem test_i2cRead_cr2 :
    (stateOf (exec (.i2cRead 0x50 0x10 3) (i2cAt (.i2cRead 0x50 0x10 3) .rd0 0 0 [] []))).i2c.trace =
      [.i2cCr2 0x0A0 false 1 false true] ∧
    (stateOf (exec (.i2cRead 0x50 0x10 3) (i2cAt (.i2cRead 0x50 0x10 3) .rd4 0 0 [] []))).i2c.trace =
      [.i2cCr2 0x0A0 true 3 false true] := by decide

/-- 95_test_vectors V7: the second payload wait of three fails with residual 2 at site 3. -/
theorem test_i2cRead_failure_record :
    (stateOf (exec (.i2cRead 0x76 0 3) (i2cAt (.i2cRead 0x76 0 3) .rd5 1 1 [false] []))).i2c.fail =
      ⟨.dataPhaseTimeout, some .s3, 2⟩ := by decide

/-- 95_test_vectors V5: the transfer length of `I2C_WRITE 0x76, 0xF4, 2` is 3. -/
theorem test_i2cWrite_cr2 :
    (stateOf (exec (.i2cWrite 0x76 0xF4 2) (i2cAt (.i2cWrite 0x76 0xF4 2) .wr0 0 0 [] []))).i2c.trace =
      [.i2cCr2 0x0EC false 3 true true] := by decide

/-- 95_test_vectors V5: the register byte goes out before the payload. -/
theorem test_i2cWrite_register_byte :
    (stateOf (exec (.i2cWrite 0x76 0xF4 2) (i2cAt (.i2cWrite 0x76 0xF4 2) .wr2 0 0 [] []))).i2c.trace =
      [.i2cTx 0xF4] := by decide

/-- 95_test_vectors T14: after SI0 STATUS reads 0x31 from a reset engine. -/
theorem test_spiInit_status :
    (stateOf (commandRun .spiInit 1 State.reset)).spi.status.word = 0x31 := by decide

/-- 95_test_vectors T14: SI2 takes the CS line from Unknown to High. -/
theorem test_spiInit_cs :
    (stateOf (exec .spiInit { State.reset with spi := runningAt .spiInit .si2 0 0 [] [] })).cs = .high := by decide

/-- 95_test_vectors T15: `SPI_SR8 0xA5` with the byte 0x5A received. -/
theorem test_spiSr8_result :
    (stateOf (commandRun (.spiSr8 0xA5) 5 (spiReady [true, true] [0x5A]))).spi.result.word = 0x005A0000 := rfl

/-- 95_test_vectors T15: `SPI_SR16 0xBEEF` with the word 0x0102 received. -/
theorem test_spiSr16_result :
    (stateOf (commandRun (.spiSr16 0xBEEF) 5 (spiReady [true, true] [0x0102]))).spi.result.word = 0x01020000 := rfl

/-- 95_test_vectors V9: the wire frames of 0x1234, low byte first. -/
theorem test_spiSr16_frames :
    wireFrames Config.spi16ByteOrderDefault [.spiTx16 0x1234, .spiRx16 0x1234] =
      [⟨0x34, some 0x34⟩, ⟨0x12, some 0x12⟩] := by decide

/-- 95_test_vectors T17: the address frame of `SPI_BURST 0x7F, 1` is 0xFF. -/
theorem test_spiBurst_address :
    (stateOf (exec (.spiBurst 0x7F 1) (spiAt (.spiBurst 0x7F 1) .b2 0 0 [] []))).spi.trace = [.spiTx8 0xFF] := by
  decide

/-- 95_test_vectors V8: site 17 with one byte received of three leaves residual 2; BF0 follows. -/
theorem test_spiBurst_failure_record :
    (stateOf (exec (.spiBurst 0x04 3) (spiAt (.spiBurst 0x04 3) .b15 1 1 [false] []))).spi.fail =
      ⟨.receiveTimeout, some .s17, 2⟩ ∧
    (stateOf (exec (.spiBurst 0x04 3) (spiAt (.spiBurst 0x04 3) .b15 1 1 [false] []))).spi.mpc = .bf0 := by decide

/-- 95_test_vectors T2: a rejected word leaves STATUS = 0x3E. -/
theorem test_rejected_status :
    (stateOf (memWrite .i2ce 0x000 .four 0x00007602 (i2cReady [] []))).i2c.status.word = 0x3E := by decide

/-- 95_test_vectors T13: a transaction before INIT is accepted and records NotInitialized. -/
theorem test_not_initialized :
    (stateOf (memWrite .i2ce 0x000 .four 0x01007602 State.reset)).i2c.faults.notInitialized = true ∧
    (stateOf (memWrite .i2ce 0x000 .four 0x01007602 State.reset)).i2c.status.busy = true := by decide

/-- 95_test_vectors T18: BUF is little-endian. -/
theorem test_buf_little_endian :
    (memRead .spie 0x102 .two (stateOf (memWrite .spie 0x100 .four 0x44332211 (spiReady [] [])))).hostRead =
      0x4433 ∧
    (memRead .spie 0x103 .one (stateOf (memWrite .spie 0x100 .four 0x44332211 (spiReady [] [])))).hostRead =
      0x44 := ⟨rfl, rfl⟩

/-- 95_test_vectors T18: a misaligned BUF read is a BadAccess. -/
theorem test_bad_access : (memRead .spie 0x101 .two (spiReady [] [])).spi.faults.badAccess = true := by decide

/-- 95_test_vectors V1, V10: the reference accesses of an I2C_READ and of SPI_CFG with BR = 3. -/
theorem test_reference_words :
    RegMap.reference.access I2cPeripheral.reset (.i2cCr2 0x0EC true 2 false true) =
      [.write 0x04 0x000224EC] ∧
    RegMap.reference.access I2cPeripheral.reset (.spiCfg 3) =
      [.write 0x00 0x0000031C, .modify 0x04 0x0F00 0x0700] := by decide

/-- 30_encoding R99: ISSUE at the other engine reaches that engine's CMD, which rejects the word. -/
theorem test_issue_other_engine :
    (stateOf (hostAction (issueOp .spie (.i2cRead 0x76 0 2)) (spiReady [] []))).spi.status.rej = true ∧
    (stateOf (hostAction (issueOp .spie (.i2cRead 0x76 0 2)) (spiReady [] []))).spi.status.busy = false := by decide

/-- 20_memory R74: the address bytes of device 0x76. -/
theorem test_i2c_address_bytes : i2cAddressByte 0x76 false = 0xEC ∧ i2cAddressByte 0x76 true = 0xED := by decide

/-! ### Witnesses: states and operands that meet the hypotheses of the obligations -/

/-- DecodeInvertsEncode, PlacedWordIsTheNextCommand, IdleEngineAcceptsCommand, CmdReadsLastAcceptedWord,
StatusAndResultWords, WaitSpinsOnBusy, ReferenceAccessesMatchFields: well-formed commands at the ends of their ranges, and
idle fault-free engines. -/
theorem test_witness_accept :
    Instr.wellFormed (.i2cRead 0x7F 0xFF 1) = true ∧ Instr.wellFormed (.i2cWrite 0x00 0x00 1) = true ∧
    Instr.wellFormed (.spiBurst 0xFF 1) = true ∧ Instr.wellFormed (.spiSr16 0xFFFF) = true ∧
    State.reset.i2c.Idle ∧ State.reset.spi.Idle ∧ (i2cReady [] []).i2c.Idle ∧ (spiReady [] []).spi.Idle ∧
    State.reset.i2c.faults.cmdWhileBusy = false ∧ State.reset.spi.faults.cmdWhileBusy = false ∧
    State.reset.spiPer.spe = false := by decide

/-- DecodedWordIsItsEncoding. -/
theorem test_witness_decoded_word :
    decode .i2ce 0xFFFF7F02 = .ok (.i2cRead 0x7F 0xFF 255) ∧ decode .spie 0xFF80000C = .ok (.spiBurst 0x80 255) := by
  decide

/-- MalformedWordsAreRejected: an idle engine, and a word for each check. -/
theorem test_witness_malformed :
    State.reset.i2c.status.busy = false ∧ State.reset.i2c.faults.cmdWhileBusy = false ∧
    opField 0x0000000F ∉ engineOpcodes .i2ce ∧ (0x0200F602 &&& zBits (opField 0x0200F602)) ≠ 0 ∧
    outOfRange (opField 0x00007602) (nField 0x00007602) = true ∧
    outOfRange (opField 0xFF007603) (nField 0xFF007603) = true ∧
    outOfRange (opField 0xFE007603) (nField 0xFE007603) = false := by decide

/-- CommandWriteStepRunsDecodedCommand. -/
theorem test_witness_command_write :
    (State.reset.withFetchWord 32 0x00000009).turns = [.host] ∧
    (State.reset.withFetchWord 32 0x00000009).hostOps = [.write .spie 0x000 .four 0x00000009] ∧
    (State.reset.withFetchWord 32 0x00000009).spi.status.busy = false ∧
    (State.reset.withFetchWord 32 0x00000009).spi.faults.cmdWhileBusy = false ∧
    decode .spie 0x00000009 = .ok .spiInit := by decide

/-- SequencerStepsIffBusy: a busy engine with its command, and an idle one. -/
theorem test_witness_sequencer :
    let s := { i2cAt .i2cInit .in0 0 0 [] [] with turns := [.sequencer .i2ce] }
    let u := { State.reset with turns := [.sequencer .spie] }
    s.turns = [.sequencer .i2ce] ∧ s.i2c.faults.cmdWhileBusy = false ∧ s.i2c.status.busy = true ∧
    runningCommand .i2ce s.i2c.latch = some .i2cInit ∧
    u.turns = [.sequencer .spie] ∧ u.spi.faults.cmdWhileBusy = false ∧ u.spi.status.busy = false := by decide

/-- CommandWriteWhileBusyFaults and BufAccessWhileBusyFaults: a busy engine, and the first and last bytes of BUF. -/
theorem test_witness_busy :
    (i2cAt .i2cInit .in0 0 0 [] []).i2c.status.busy = true ∧
    (i2cAt .i2cInit .in0 0 0 [] []).i2c.faults.cmdWhileBusy = false ∧
    0x100 ≤ (0x100#9).toNat ∧ (0x100#9).toNat % AccessSize.four.bytes = 0 ∧
    0x100 ≤ (0x1FF#9).toNat ∧ (0x1FF#9).toNat % AccessSize.one.bytes = 0 := by decide

/-- BufIsLittleEndian and OnlyIllegalAccessesAreBadAccess: an access of each kind, at the ends of each range. -/
theorem test_witness_access :
    (i2cReady [] []).i2c.faults.cmdWhileBusy = false ∧ (i2cReady [] []).i2c.status.busy = false ∧
    (0x1FC#9).toNat % AccessSize.four.bytes = 0 ∧ 0x100 ≤ (0x1FC#9).toNat ∧
    (0x00B#9).toNat < 0x00C ∧ AccessSize.one ≠ .four ∧ (0x00A#9).toNat % 4 ≠ 0 ∧
    0x100 ≤ (0x101#9).toNat ∧ (0x101#9).toNat % AccessSize.two.bytes ≠ 0 ∧
    0x00C ≤ (0x00C#9).toNat ∧ (0x0FF#9).toNat < 0x100 := by decide

/-- Every row of the micro-program tables: a fault-free engine at that label, with a budget, an index below the count and
answers at hand. -/
theorem test_witness_i2c_rows (l : Label) :
    let x := (i2cAt (.i2cRead 0x76 0 3) l 1 2 [true] [0xA5]).i2c
    x.FaultFree ∧ x.contested = [] ∧ x.mpc = l ∧ 1 ≤ x.budget.toNat ∧ x.idx.toNat < x.latch.n.toNat ∧
    x.env.drawFlag .i2ce = (true, ⟨[], [0xA5], 0⟩) ∧ x.env.drawValue .i2ce = (0xA5, ⟨[true], [], 0⟩) := by
  exact ⟨rfl, rfl, rfl, (by decide : 1 ≤ (2#32).toNat), (by decide : (1#9).toNat < (3#8).toNat), rfl, rfl⟩

theorem test_witness_spi_rows (l : Label) :
    let x := (spiAt (.spiBurst 0x04 3) l 1 2 [false] [0xA5]).spi
    x.FaultFree ∧ x.mpc = l ∧ 1 ≤ x.budget.toNat ∧ x.idx.toNat < x.latch.n.toNat ∧
    x.env.drawFlag .spie = (false, ⟨[], [0xA5], 0⟩) ∧ x.env.drawValue .spie = (0xA5, ⟨[false], [], 0⟩) := by
  exact ⟨rfl, rfl, (by decide : 1 ≤ (2#32).toNat), (by decide : (1#9).toNat < (3#8).toNat), rfl, rfl⟩

/-- EventsWriteTheirFields: the last index of BUF at a payload row of each kind; the rows themselves are those of
`test_witness_i2c_rows` and `test_witness_spi_rows`. -/
theorem test_witness_event_rows :
    (i2cAt (.i2cRead 0x76 0 255) .rd6 255 2 [] [0xA5]).i2c.idx.toNat < 256 ∧
    (i2cAt (.i2cWrite 0x76 0 254) .wr4 255 2 [] []).i2c.idx.toNat < 256 ∧
    (i2cAt (.i2cWrite 0x76 0 254) .wr4 255 2 [] []).i2c.contested = [] ∧
    (spiAt (.spiBurst 0x04 255) .b16 255 2 [] [0xA5]).spi.idx.toNat < 256 := by decide

/-- An engine of I2C_READ at its payload wait has the invariant, for any budget the wait may have. -/
theorem engineInv_read_wait (flags : List Bool) (values : List (BitVec 32)) :
    EngineInv .i2ce (i2cAt (.i2cRead 0x76 0 3) .rd5 1 1 flags values).i2c where
  idle := by intro h; cases h
  running := fun _ => ⟨.i2cRead 0x76 0 3, rfl, rfl, rfl, rfl⟩
  csdrv := rfl
  payload := fun _ => (by decide : (1#9).toNat < (3#8).toNat)
  budget := by
    intro site h
    obtain rfl : site = .s3 := by simpa [i2cAt, runningAt, awaitSite] using h.symm
    exact ⟨(by decide : 1 ≤ (1#32).toNat), timeoutBudget_pos .s3⟩
  failure := by intro h; cases h
  result := rfl

/-- WaitEndsWithinItsBudget: with a budget of 1, the script of each of its three clauses. -/
theorem test_witness_wait :
    EngineInv .i2ce (i2cAt (.i2cRead 0x76 0 3) .rd5 1 1 [] []).i2c ∧
    EngineInv .i2ce (i2cAt (.i2cRead 0x76 0 3) .rd5 1 1 [true] []).i2c ∧
    EngineInv .i2ce (i2cAt (.i2cRead 0x76 0 3) .rd5 1 1 [false] []).i2c ∧
    (i2cAt (.i2cRead 0x76 0 3) .rd5 1 1 [] []).i2c.FaultFree ∧
    awaitSite .rd5 = some .s3 ∧ (waitRow .rd5).isSome = true ∧
    0 < (i2cAt (.i2cRead 0x76 0 3) .rd5 1 1 [true] []).i2c.budget.toNat ∧
    ([true] : List Bool) = List.replicate 0 false ++ true :: [] ∧
    ([false] : List Bool) = List.replicate 1 false ++ [] :=
  ⟨engineInv_read_wait _ _, engineInv_read_wait _ _, engineInv_read_wait _ _, rfl, rfl, rfl, by decide, rfl, rfl⟩

/-- StepKeepsInvariant and InvariantStatesStepOn: a state with a command running that has the invariant. -/
theorem inv_read_wait (flags : List Bool) (values : List (BitVec 32)) :
    Inv { i2cAt (.i2cRead 0x76 0 3) .rd5 1 1 flags values with turns := [.sequencer .i2ce] } where
  i2cBuf := rfl
  spiBuf := rfl
  i2c := fun _ => engineInv_read_wait flags values
  spi := fun _ =>
    { idle := fun _ => rfl
      running := by intro h; cases h
      csdrv := rfl
      payload := by intro h; cases h
      budget := by intro site h; cases h
      failure := by intro h; cases h
      result := rfl }
  csNotHigh := by intro _ h; cases h
  csLow := by intro _ _ h; cases h

theorem test_witness_inv :
    Inv { i2cAt (.i2cRead 0x76 0 3) .rd5 1 1 [false] [] with turns := [.sequencer .i2ce] } ∧
    ∃ t, step { i2cAt (.i2cRead 0x76 0 3) .rd5 1 1 [false] [] with turns := [.sequencer .i2ce] } = .next t ∧
      t.i2c.mpc = .rdFail :=
  ⟨inv_read_wait _ _, _, rfl, rfl⟩

/-- BusyClearedOnlyByFinish, ValidAndInitPersist, HostFaultsAreSticky, TraceGrowsByAtMostOneEvent: a FINISH step from a
state with the invariant, with a fault recorded. -/
theorem test_witness_finish_step :
    let s := { i2cAt (.i2cRead 0x76 0 3) .rd10 3 0 [] [] with turns := [.sequencer .i2ce] }
    Inv s ∧ s.hostOps.head? ≠ some .reset ∧ s.i2c.status.busy = true ∧ s.i2c.status.valid = true ∧
    s.i2c.status.init = true ∧
    ∃ t, step s = .next t ∧ t.i2c.status.busy = false ∧ t.i2c.faults.cmdWhileBusy = false := by
  refine ⟨?_, by decide, rfl, rfl, rfl, _, rfl, rfl, rfl⟩
  exact
    { i2cBuf := rfl
      spiBuf := rfl
      i2c := fun _ =>
        { idle := by intro h; cases h
          running := fun _ => ⟨.i2cRead 0x76 0 3, rfl, rfl, rfl, rfl⟩
          csdrv := rfl
          payload := by intro h; cases h
          budget := by intro site h; cases h
          failure := by intro h; cases h
          result := rfl }
      spi := (inv_read_wait [] []).spi
      csNotHigh := by intro _ h; cases h
      csLow := by intro _ _ h; cases h }

theorem test_witness_sticky :
    let s := { State.reset.onEngine .spie (Engine.raise .badAccess) with turns := [.host] }
    s.spi.faults.has .badAccess = true ∧ ∃ t, step s = .next t := ⟨rfl, _, rfl⟩

/-- CsContentionMakesLevelUnknown: CSDRV = 1 and 0; a step without a CS event; steps with each CS event. -/
theorem test_witness_cs :
    (spiAt (.spiBurst 0x04 3) .b2 0 0 [] []).spi.faults.cmdWhileBusy = false ∧
    (spiAt (.spiBurst 0x04 3) .b2 0 0 [] []).spi.status.csdrv = true ∧ (spiReady [] []).spi.status.csdrv = false ∧
    csEvents (newEvents .spie (spiAt (.spiBurst 0x04 3) .b2 0 0 [] [])
      (stateOf (exec (.spiBurst 0x04 3) (spiAt (.spiBurst 0x04 3) .b2 0 0 [] [])))) = [] ∧
    newEvents .spie (spiAt (.spiBurst 0x04 3) .b0 0 0 [] [])
      (stateOf (exec (.spiBurst 0x04 3) (spiAt (.spiBurst 0x04 3) .b0 0 0 [] []))) = [.csLow] ∧
    newEvents .spie (spiAt (.spiBurst 0x04 3) .b17 0 0 [] [])
      (stateOf (exec (.spiBurst 0x04 3) (spiAt (.spiBurst 0x04 3) .b17 0 0 [] []))) = [.csHigh] := by
  refine ⟨rfl, rfl, rfl, rfl, rfl, rfl⟩

/-- OneAccessRecordsAtMostOneFault, TraceGrowsByAtMostOneEvent, EnginesAreIndependent: turns that answer a next state. -/
theorem test_witness_turns :
    (∃ t, sequencerTurn .i2ce (i2cAt (.i2cRead 0x76 0 3) .rd5 1 1 [true] []) = .next t) ∧
    (∃ t, sequencerTurn .spie (spiAt (.spiBurst 0x04 3) .b2 0 0 [] []) = .next t) ∧
    (∃ t, hostAction (.read .i2ce 0x100 .one) (i2cAt (.i2cRead 0x76 0 3) .rd5 1 1 [true] []) = .next t ∧
      t.i2c.faults.cmdWhileBusy = false) :=
  ⟨⟨_, rfl⟩, ⟨_, rfl⟩, _, rfl, rfl⟩

/-- I2cCommandFrame and SpiCommandFrame: a step of each kind that the frames tell apart. -/
theorem test_witness_frames :
    (∃ t, exec (.i2cRead 0x76 0 3) (i2cAt (.i2cRead 0x76 0 3) .rd6 1 1 [] [0x11]) = .next t) ∧
    (∃ t, exec (.i2cWrite 0x76 0 3) (i2cAt (.i2cWrite 0x76 0 3) .wr4 1 1 [] []) = .next t) ∧
    (∃ t, exec .i2cInit (i2cAt .i2cInit .in4 1 1 [] []) = .next t) ∧
    (∃ t, exec (.i2cRead 0x76 0 3) State.reset = .next t) ∧
    (∃ t, exec (.spiBurst 0x04 3) (spiAt (.spiBurst 0x04 3) .b16 1 1 [] [0x11]) = .next t) ∧
    (∃ t, exec (.spiSr8 0xA5) (spiAt (.spiSr8 0xA5) .x4 0 0 [] []) = .next t) ∧
    (∃ t, exec (.spiSr16 0x1234) (spiAt (.spiSr16 0x1234) .yFail 0 0 [] [0x77]) = .next t) ∧
    (∃ t, exec .spiInit (spiAt .spiInit .si2 0 0 [] []) = .next t) :=
  ⟨⟨_, rfl⟩, ⟨_, rfl⟩, ⟨_, rfl⟩, ⟨_, rfl⟩, ⟨_, rfl⟩, ⟨_, rfl⟩, ⟨_, rfl⟩, ⟨_, rfl⟩⟩

/-! ### Whole commands that succeed -/

/-- The hypotheses of I2cReadSucceedsWhenAnswered and EveryCommandFinishesWithinBound, and of InitCommandsEndInSuccess. -/
theorem test_witness_ready :
    (i2cReady [true, true, true, true] [0x99]).i2c.ReadyFor (.i2cRead 0x76 0 1) ∧
    (i2cReady [true, true, true] []).i2c.ReadyFor (.i2cWrite 0x76 0xF4 1) ∧
    (spiReady [true, true] [0x5A]).spi.ReadyFor (.spiSr8 0xA5) ∧
    (spiReady [true, true] [0x5A]).spi.ReadyFor (.spiSr16 0x1234) ∧
    (spiReady (List.replicate 8 true) [1, 2, 3, 4]).spi.ReadyFor (.spiBurst 0x04 1) ∧
    State.reset.i2c.ReadyFor .i2cInit ∧ State.reset.i2c.status.csdrv = false ∧ State.reset.spi.ReadyFor .spiInit := by
  refine ⟨⟨rfl, ⟨rfl, rfl⟩, fun _ => rfl⟩, ⟨rfl, ⟨rfl, rfl⟩, fun _ => rfl⟩, ⟨rfl, ⟨rfl, rfl⟩, fun _ => rfl⟩,
    ⟨rfl, ⟨rfl, rfl⟩, fun _ => rfl⟩, ⟨rfl, ⟨rfl, rfl⟩, fun _ => rfl⟩, ⟨rfl, ⟨rfl, rfl⟩, ?_⟩, rfl,
    ⟨rfl, ⟨rfl, rfl⟩, ?_⟩⟩ <;> intro h <;> cases h

/-- EveryCommandFinishesWithinBound: a bound on every budget. -/
theorem test_witness_budget_bound : ∀ site, (Config.timeoutBudget site).toNat ≤ 4294967295 := by
  intro site
  have := (Config.timeoutBudget site).isLt
  omega

/-- The scripts of the four statements with every poll answered 1, at a count of 1. -/
theorem test_witness_answered_scripts :
    (i2cReady [true, true, true, true] [0x99]).i2c.env.flags = List.replicate ((1#8).toNat + 3) true ++ [] ∧
    (i2cReady [true, true, true, true] [0x99]).i2c.env.values = [0x99] ++ [] ∧
    ([0x99] : List (BitVec 32)).length = (1#8).toNat ∧ (1#8) ≠ 0 ∧ (1#8) ≠ 255 ∧
    (i2cReady [true, true, true] []).i2c.env.flags = List.replicate ((1#8).toNat + 2) true ++ [] ∧
    (spiReady [true, true] [0x5A]).spi.env.flags = true :: true :: [] ∧
    (spiReady [true, true] [0x5A]).spi.env.values = 0x5A :: [] ∧
    (spiReady (List.replicate 8 true) [1, 2, 3, 4]).spi.env.flags = List.replicate (2 * (1#8).toNat + 6) true ++ [] ∧
    (spiReady (List.replicate 8 true) [1, 2, 3, 4]).spi.env.values = [1, 2, 3] ++ [4] ++ [] := by
  refine ⟨rfl, rfl, rfl, by decide, by decide, rfl, rfl, rfl, rfl, rfl⟩

/-- 95_test_vectors T7: I2C_READ of one byte, every poll 1. -/
theorem test_witness_read_success :
    CommandEnded (.i2cRead 0x76 0 1) (i2cReady [true, true, true, true] [0x99])
      (after (.i2cRead 0x76 0 1) 11 (i2cReady [true, true, true, true] [0x99])) ∧
    (after (.i2cRead 0x76 0 1) 11 (i2cReady [true, true, true, true] [0x99])).i2c.result.outcome = .success ∧
    (after (.i2cRead 0x76 0 1) 11 (i2cReady [true, true, true, true] [0x99])).i2c.bufByte .i2ce 0 = 0x99 :=
  ⟨⟨test_witness_ready.1, rfl, 11, rfl, rfl⟩, rfl, rfl⟩

/-- I2C_WRITE of one byte, every poll 1 (the shape of 95_test_vectors T9). -/
theorem test_witness_write_success :
    CommandEnded (.i2cWrite 0x76 0xF4 1) (i2cReady [true, true, true] [])
      (after (.i2cWrite 0x76 0xF4 1) 8 (i2cReady [true, true, true] [])) ∧
    (after (.i2cWrite 0x76 0xF4 1) 8 (i2cReady [true, true, true] [])).i2c.result.outcome = .success :=
  ⟨⟨test_witness_ready.2.1, rfl, 8, rfl, rfl⟩, rfl⟩

/-- I2C_INIT from reset. -/
theorem test_witness_init_ended :
    CommandEnded .i2cInit State.reset (after .i2cInit 5 State.reset) :=
  ⟨test_witness_ready.2.2.2.2.2.1, rfl, 5, rfl, rfl⟩

/-- 95_test_vectors V9: SPI_SR8 with an echo device, under the contract. -/
theorem test_witness_sr8_success :
    CommandEnded (.spiSr8 0xA5) (spiReady [true, true] [0xA5]) (after (.spiSr8 0xA5) 5 (spiReady [true, true] [0xA5])) ∧
    (after (.spiSr8 0xA5) 5 (spiReady [true, true] [0xA5])).spi.result.outcome = .success ∧
    spiContract true (newEvents .spie (spiReady [true, true] [0xA5])
      (after (.spiSr8 0xA5) 5 (spiReady [true, true] [0xA5]))) = true :=
  ⟨⟨⟨rfl, ⟨rfl, rfl⟩, fun _ => rfl⟩, rfl, 5, rfl, rfl⟩, rfl, rfl⟩

/-- 95_test_vectors V9: SPI_SR16 with an echo device, under the contract. -/
theorem test_witness_sr16_success :
    CommandEnded (.spiSr16 0x1234) (spiReady [true, true] [0x1234])
      (after (.spiSr16 0x1234) 5 (spiReady [true, true] [0x1234])) ∧
    (after (.spiSr16 0x1234) 5 (spiReady [true, true] [0x1234])).spi.result.outcome = .success ∧
    spiContract true (newEvents .spie (spiReady [true, true] [0x1234])
      (after (.spiSr16 0x1234) 5 (spiReady [true, true] [0x1234]))) = true :=
  ⟨⟨⟨rfl, ⟨rfl, rfl⟩, fun _ => rfl⟩, rfl, 5, rfl, rfl⟩, rfl, rfl⟩

/-- SPI_BURST of one byte, every poll 1. -/
theorem test_witness_burst_success :
    CommandEnded (.spiBurst 0x04 1) (spiReady (List.replicate 8 true) [1, 2, 3, 4])
      (after (.spiBurst 0x04 1) 19 (spiReady (List.replicate 8 true) [1, 2, 3, 4])) ∧
    (after (.spiBurst 0x04 1) 19 (spiReady (List.replicate 8 true) [1, 2, 3, 4])).spi.result.outcome = .success :=
  ⟨⟨test_witness_ready.2.2.2.2.1, rfl, 19, rfl, rfl⟩, rfl⟩

/-! ### Whole commands that fail: the wait named gets 0 from every poll -/

/-- I2CE ready, with `good` polls answered 1 and then every poll of a wait at `site` answered 0. -/
def i2cMissing (good : Nat) (site : Site) (values : List (BitVec 32)) : State :=
  i2cReady (List.replicate good true ++ List.replicate (polls site) false) values

/-- SPIE ready, with `good` polls answered 1 and then every poll of a wait at `site` answered 0. -/
def spiMissing (good : Nat) (site : Site) (values : List (BitVec 32)) : State :=
  spiReady (List.replicate good true ++ List.replicate (polls site) false) values

/-- An engine arriving at a wait of the command `i`, with every poll of that wait to be answered 0. -/
def waiting (i : Instr) (l : Label) (p : Phase) (csdrv : Bool) (idx : BitVec 9) (site : Site) (tmp : BitVec 16)
    (buf : Memory) (trace : List Event) : Engine :=
  { Engine.reset with
    cmd := encode i
    status := ⟨true, true, false, true, p, csdrv⟩
    mpc := l
    budget := Config.timeoutBudget site
    idx := idx
    latch := latchOperands i ⟨0, 0, 0, 0, 0⟩
    tmp := tmp
    buf := buf
    trace := trace
    env := ⟨List.replicate (polls site) false, [], 0⟩ }

/-- ISR once TXIS, TC and RXNE have been seen 1. -/
def seenIsr (stopf : Bool) : I2cStatus :=
  { I2cStatus.reset with txis := true, tc := true, rxne := true, stopf := stopf }

/-- SR once TXE and RXNE have been seen 1. -/
def seenSr : SpiStatus := { SpiStatus.reset with txe := true, rxne := true }

/-- 95_test_vectors V2: I2C_READ fails at site 1; NackSurfacesAtTheNextWait, StopFlagClearedExactlyOnSuccess. -/
theorem test_witness_read_site1 :
    ∃ t, CommandEnded (.i2cRead 0x76 0 2) (i2cMissing 0 .s1 []) t ∧ t.i2c.result.word = 0x00000009 ∧
      newEvents .i2ce (i2cMissing 0 .s1 []) t =
        [.i2cCr2 0x0EC false 1 false true] ++ List.replicate (polls .s1) (.i2cPoll .txis false) := by
  refine ⟨_, ⟨⟨rfl, ⟨rfl, rfl⟩, fun _ => rfl⟩, rfl, _, commandRun_fails (j := 1) (m := 1) (site := .s1)
    (failLabel := .rdFail) (poll := .i2cPoll .txis false) (p := .addressOrCommand) (res := 0)
    rfl rfl rfl rfl (by rintro _ (rfl | rfl) _ (rfl | rfl) _ _ _ <;> rfl) rfl, rfl⟩, rfl, rfl⟩

/-- 95_test_vectors T8: I2C_READ fails at site 2. -/
theorem test_witness_read_site2 :
    ∃ t, CommandEnded (.i2cRead 0x76 0 3) (i2cMissing 1 .s2 []) t ∧ t.i2c.result.word = 0x00000011 ∧
      newEvents .i2ce (i2cMissing 1 .s2 []) t =
        [.i2cCr2 0x0EC false 1 false true, .i2cPoll .txis true, .i2cTx 0] ++
          List.replicate (polls .s2) (.i2cPoll .tc false) := by
  refine ⟨_, ⟨⟨rfl, ⟨rfl, rfl⟩, fun _ => rfl⟩, rfl, _, commandRun_fails (j := 3) (m := 1) (site := .s2)
    (failLabel := .rdFail) (poll := .i2cPoll .tc false) (p := .addressOrCommand) (res := 0)
    rfl rfl rfl rfl (by rintro _ (rfl | rfl) _ (rfl | rfl) _ _ _ <;> rfl) rfl, rfl⟩, rfl, rfl⟩

/-- 95_test_vectors T8: the first payload wait of three fails, residual 3. -/
theorem test_witness_read_site3_first :
    ∃ t, CommandEnded (.i2cRead 0x76 0 3) (i2cMissing 2 .s3 []) t ∧ t.i2c.result.word = 0x0000031A ∧
      newEvents .i2ce (i2cMissing 2 .s3 []) t =
        [.i2cCr2 0x0EC false 1 false true, .i2cPoll .txis true, .i2cTx 0, .i2cPoll .tc true,
          .i2cCr2 0x0EC true 3 false true] ++ List.replicate (polls .s3) (.i2cPoll .rxne false) := by
  refine ⟨_, ⟨⟨rfl, ⟨rfl, rfl⟩, fun _ => rfl⟩, rfl, _, commandRun_fails (j := 5) (m := 1) (site := .s3)
    (failLabel := .rdFail) (poll := .i2cPoll .rxne false) (p := .data) (res := residualOf 3 0)
    rfl rfl rfl rfl (by rintro _ (rfl | rfl) _ (rfl | rfl) _ _ _ <;> rfl) rfl, rfl⟩, rfl, rfl⟩

/-- 95_test_vectors T8: the third payload wait of three fails, residual 1; two bytes are in BUF. -/
theorem test_witness_read_site3_third :
    ∃ t, CommandEnded (.i2cRead 0x76 0 3) (i2cMissing 4 .s3 [0xA1, 0xA2]) t ∧ t.i2c.result.word = 0x0000011A ∧
      t.i2c.buf = [(0, 0xA1), (1, 0xA2)] := by
  refine ⟨_, ⟨⟨rfl, ⟨rfl, rfl⟩, fun _ => rfl⟩, rfl, _, commandRun_fails (w := 
      { State.reset with
        i2cPer := { I2cPeripheral.reset with sadd := saddOf 0x76, rdWrn := true, nbytes := 3, start := true, stop := false, rxdata := 0xA2, isr := seenIsr false }
        i2c := waiting (.i2cRead 0x76 0 3) .rd5 .data false 2 .s3 0xA2 [(0, 0xA1), (1, 0xA2)]
          ([.i2cCr2 (saddOf 0x76) false 1 false true, .i2cPoll .txis true, .i2cTx 0, .i2cPoll .tc true,
        .i2cCr2 (saddOf 0x76) true 3 false true,
            .i2cPoll .rxne true, .i2cRx 0xA1, .i2cPoll .rxne true, .i2cRx 0xA2]) }) (j := 9) (m := 1) (site := .s3)
    (failLabel := .rdFail) (poll := .i2cPoll .rxne false) (p := .data) (res := residualOf 3 2)
    rfl rfl rfl rfl (by rintro _ (rfl | rfl) _ (rfl | rfl) _ _ _ <;> rfl) rfl, rfl⟩, rfl, rfl⟩

/-- I2C_READ of one byte fails at site 4 (the shape of 95_test_vectors T8, last row). -/
theorem test_witness_read_site4 :
    ∃ t, CommandEnded (.i2cRead 0x76 0 1) (i2cMissing 3 .s4 [0xA1]) t ∧ t.i2c.result.word = 0x00000023 ∧
      t.i2c.buf = [(0, 0xA1)] := by
  refine ⟨_, ⟨⟨rfl, ⟨rfl, rfl⟩, fun _ => rfl⟩, rfl, _, commandRun_fails (w := 
      { State.reset with
        i2cPer := { I2cPeripheral.reset with sadd := saddOf 0x76, rdWrn := true, nbytes := 1, start := true, stop := true, rxdata := 0xA1, isr := seenIsr false }
        i2c := waiting (.i2cRead 0x76 0 1) .rd8 .completion false 1 .s4 0xA1 [(0, 0xA1)]
          ([.i2cCr2 (saddOf 0x76) false 1 false true, .i2cPoll .txis true, .i2cTx 0, .i2cPoll .tc true,
        .i2cCr2 (saddOf 0x76) true 1 false true,
            .i2cPoll .rxne true, .i2cRx 0xA1, .i2cStop]) }) (j := 8) (m := 1) (site := .s4)
    (failLabel := .rdFail) (poll := .i2cPoll .stopf false) (p := .completion) (res := 0)
    rfl rfl rfl rfl (by rintro _ (rfl | rfl) _ (rfl | rfl) _ _ _ <;> rfl) rfl, rfl⟩, rfl, rfl⟩

/-- 95_test_vectors V6: I2C_WRITE fails at site 5. -/
theorem test_witness_write_site5 :
    ∃ t, CommandEnded (.i2cWrite 0x76 0xF4 2) (i2cMissing 0 .s5 []) t ∧ t.i2c.result.word = 0x00000029 ∧
      newEvents .i2ce (i2cMissing 0 .s5 []) t =
        [.i2cCr2 0x0EC false 3 true true] ++ List.replicate (polls .s5) (.i2cPoll .txis false) := by
  refine ⟨_, ⟨⟨rfl, ⟨rfl, rfl⟩, fun _ => rfl⟩, rfl, _, commandRun_fails (j := 1) (m := 1) (site := .s5)
    (failLabel := .wrFail) (poll := .i2cPoll .txis false) (p := .addressOrCommand) (res := 0)
    rfl rfl rfl rfl (by rintro _ (rfl | rfl) _ (rfl | rfl) _ _ _ <;> rfl) rfl, rfl⟩, rfl, rfl⟩

/-- 95_test_vectors T10: the first site-6 wait of two fails, residual 2. -/
theorem test_witness_write_site6 :
    ∃ t, CommandEnded (.i2cWrite 0x76 0xF4 2) (i2cMissing 1 .s6 []) t ∧ t.i2c.result.word = 0x00000232 ∧
      newEvents .i2ce (i2cMissing 1 .s6 []) t =
        [.i2cCr2 0x0EC false 3 true true, .i2cPoll .txis true, .i2cTx 0xF4] ++
          List.replicate (polls .s6) (.i2cPoll .txis false) := by
  refine ⟨_, ⟨⟨rfl, ⟨rfl, rfl⟩, fun _ => rfl⟩, rfl, _, commandRun_fails (j := 3) (m := 1) (site := .s6)
    (failLabel := .wrFail) (poll := .i2cPoll .txis false) (p := .data) (res := residualOf 2 0)
    rfl rfl rfl rfl (by rintro _ (rfl | rfl) _ (rfl | rfl) _ _ _ <;> rfl) rfl, rfl⟩, rfl, rfl⟩

/-- 95_test_vectors T10: the second site-6 wait of two fails, residual 1. -/
theorem test_witness_write_site6_second :
    ∃ t, CommandEnded (.i2cWrite 0x76 0xF4 2) (i2cMissing 2 .s6 []) t ∧ t.i2c.result.word = 0x00000132 ∧
      newEvents .i2ce (i2cMissing 2 .s6 []) t =
        [.i2cCr2 0x0EC false 3 true true, .i2cPoll .txis true, .i2cTx 0xF4, .i2cPoll .txis true,
          .i2cTx (Config.bufAtReset .i2ce 0 0)] ++ List.replicate (polls .s6) (.i2cPoll .txis false) := by
  refine ⟨_, ⟨⟨rfl, ⟨rfl, rfl⟩, fun _ => rfl⟩, rfl, _, commandRun_fails (w :=
      { State.reset with
        i2cPer := { I2cPeripheral.reset with
          sadd := saddOf 0x76, nbytes := 3, autoend := true, start := true, txdata := Config.bufAtReset .i2ce 0 0
          isr := { I2cStatus.reset with txis := true } }
        i2c := waiting (.i2cWrite 0x76 0xF4 2) .wr3 .data false 1 .s6 0 []
          [.i2cCr2 (saddOf 0x76) false 3 true true, .i2cPoll .txis true, .i2cTx 0xF4, .i2cPoll .txis true,
            .i2cTx (Config.bufAtReset .i2ce 0 0)] }) (j := 5) (m := 1) (site := .s6)
    (failLabel := .wrFail) (poll := .i2cPoll .txis false) (p := .data) (res := residualOf 2 1)
    rfl rfl rfl rfl (by rintro _ (rfl | rfl) _ (rfl | rfl) _ _ _ <;> rfl) rfl, rfl⟩, rfl, rfl⟩

/-- I2C_WRITE of one byte fails at site 7 (the shape of 95_test_vectors T10, last row). -/
theorem test_witness_write_site7 :
    ∃ t, CommandEnded (.i2cWrite 0x76 0xF4 1) (i2cMissing 2 .s7 []) t ∧ t.i2c.result.word = 0x0000003B := by
  refine ⟨_, ⟨⟨rfl, ⟨rfl, rfl⟩, fun _ => rfl⟩, rfl, _, commandRun_fails (j := 5) (m := 1) (site := .s7)
    (failLabel := .wrFail) (poll := .i2cPoll .stopf false) (p := .completion) (res := 0)
    rfl rfl rfl rfl (by rintro _ (rfl | rfl) _ (rfl | rfl) _ _ _ <;> rfl) rfl, rfl⟩, rfl⟩

/-- 95_test_vectors T15: SPI_SR8 fails at site 8. -/
theorem test_witness_sr8_site8 :
    ∃ t, CommandEnded (.spiSr8 0xA5) (spiMissing 0 .s8 [0x77]) t ∧ t.spi.result.word &&& 0x0000FFFF = 0x00000044 := by
  refine ⟨_, ⟨⟨rfl, ⟨rfl, rfl⟩, fun _ => rfl⟩, rfl, _, commandRun_fails (j := 0) (m := 1) (site := .s8)
    (failLabel := .xFail) (poll := .spiPoll .txe false) (p := .addressOrCommand) (res := 0)
    rfl rfl rfl rfl (by rintro _ (rfl | rfl) _ (rfl | rfl) _ _ _ <;> rfl) rfl, rfl⟩, rfl⟩

/-- 95_test_vectors T15: SPI_SR8 fails at site 9. -/
theorem test_witness_sr8_site9 :
    ∃ t, CommandEnded (.spiSr8 0xA5) (spiMissing 1 .s9 [0x77]) t ∧ t.spi.result.word &&& 0x0000FFFF = 0x0000004D := by
  refine ⟨_, ⟨⟨rfl, ⟨rfl, rfl⟩, fun _ => rfl⟩, rfl, _, commandRun_fails (j := 2) (m := 1) (site := .s9)
    (failLabel := .xFail) (poll := .spiPoll .rxne false) (p := .data) (res := 0)
    rfl rfl rfl rfl (by rintro _ (rfl | rfl) _ (rfl | rfl) _ _ _ <;> rfl) rfl, rfl⟩, rfl⟩

/-- 95_test_vectors T15: SPI_SR16 fails at site 8. -/
theorem test_witness_sr16_site8 :
    ∃ t, CommandEnded (.spiSr16 0x1234) (spiMissing 0 .s8 [0x77]) t ∧ t.spi.result.word &&& 0x0000FFFF = 0x00000044 := by
  refine ⟨_, ⟨⟨rfl, ⟨rfl, rfl⟩, fun _ => rfl⟩, rfl, _, commandRun_fails (j := 0) (m := 1) (site := .s8)
    (failLabel := .yFail) (poll := .spiPoll .txe false) (p := .addressOrCommand) (res := 0)
    rfl rfl rfl rfl (by rintro _ (rfl | rfl) _ (rfl | rfl) _ _ _ <;> rfl) rfl, rfl⟩, rfl⟩

/-- 95_test_vectors T15: SPI_SR16 fails at site 9. -/
theorem test_witness_sr16_site9 :
    ∃ t, CommandEnded (.spiSr16 0x1234) (spiMissing 1 .s9 [0x77]) t ∧ t.spi.result.word &&& 0x0000FFFF = 0x0000004D := by
  refine ⟨_, ⟨⟨rfl, ⟨rfl, rfl⟩, fun _ => rfl⟩, rfl, _, commandRun_fails (j := 2) (m := 1) (site := .s9)
    (failLabel := .yFail) (poll := .spiPoll .rxne false) (p := .data) (res := 0)
    rfl rfl rfl rfl (by rintro _ (rfl | rfl) _ (rfl | rfl) _ _ _ <;> rfl) rfl, rfl⟩, rfl⟩

/-- 95_test_vectors V8: SPI_BURST fails at site 10. -/
theorem test_witness_burst_site10 :
    ∃ t, CommandEnded (.spiBurst 0x04 3) (spiMissing 0 .s10 []) t ∧ t.spi.result.word = 0x00000054 := by
  refine ⟨_, ⟨⟨rfl, ⟨rfl, rfl⟩, fun _ => rfl⟩, rfl, _, commandRun_fails (j := 1) (m := 2) (site := .s10)
    (failLabel := .bf0) (poll := .spiPoll .txe false) (p := .addressOrCommand) (res := 0)
    rfl rfl rfl rfl (by rintro _ (rfl | rfl) _ (rfl | rfl) _ _ _ <;> rfl) rfl, rfl⟩, rfl⟩

/-- 95_test_vectors V8: SPI_BURST fails at site 16 with idx 0. -/
theorem test_witness_burst_site16 :
    ∃ t, CommandEnded (.spiBurst 0x04 3) (spiMissing 6 .s16 [1, 2, 3]) t ∧ t.spi.result.word = 0x00000384 := by
  refine ⟨_, ⟨⟨rfl, ⟨rfl, rfl⟩, fun _ => rfl⟩, rfl, _, commandRun_fails (w := 
      { State.reset with
        cs := .low
        spiPer := { SpiPeripheral.reset with drTx := Config.spiDummy.setWidth 16, drRx := 3, sr := seenSr }
        spi := waiting (.spiBurst 0x04 3) .b13 .addressOrCommand true 0 .s16 3 []
          [.csLow, .spiPoll .txe true, .spiTx8 (burstAddress 0x04), .spiPoll .rxne true, .spiRx8 1,
            .spiPoll .txe true, .spiTx8 Config.spiDummy, .spiPoll .rxne true, .spiRx8 2,
            .spiPoll .txe true, .spiTx8 Config.spiDummy, .spiPoll .rxne true, .spiRx8 3] }) (j := 13) (m := 2) (site := .s16)
    (failLabel := .bf0) (poll := .spiPoll .txe false) (p := .data) (res := residualOf 3 0)
    rfl rfl rfl rfl (by rintro _ (rfl | rfl) _ (rfl | rfl) _ _ _ <;> rfl) rfl, rfl⟩, rfl⟩

/-- 95_test_vectors V3: SPI_BURST fails at site 17 with idx 0; the CS line ends High. -/
theorem test_witness_burst_site17 :
    ∃ t, CommandEnded (.spiBurst 0x04 3) (spiMissing 7 .s17 [1, 2, 3]) t ∧ t.spi.result.word = 0x0000038D ∧
      t.cs = .high := by
  refine ⟨_, ⟨⟨rfl, ⟨rfl, rfl⟩, fun _ => rfl⟩, rfl, _, commandRun_fails (w := 
      { State.reset with
        cs := .low
        spiPer := { SpiPeripheral.reset with drTx := Config.spiDummy.setWidth 16, drRx := 3, sr := seenSr }
        spi := waiting (.spiBurst 0x04 3) .b15 .data true 0 .s17 3 []
          ([.csLow, .spiPoll .txe true, .spiTx8 (burstAddress 0x04), .spiPoll .rxne true, .spiRx8 1,
            .spiPoll .txe true, .spiTx8 Config.spiDummy, .spiPoll .rxne true, .spiRx8 2,
            .spiPoll .txe true, .spiTx8 Config.spiDummy, .spiPoll .rxne true, .spiRx8 3,
            .spiPoll .txe true, .spiTx8 Config.spiDummy]) }) (j := 15) (m := 2) (site := .s17)
    (failLabel := .bf0) (poll := .spiPoll .rxne false) (p := .data) (res := residualOf 3 0)
    rfl rfl rfl rfl (by rintro _ (rfl | rfl) _ (rfl | rfl) _ _ _ <;> rfl) rfl, rfl⟩, rfl, rfl⟩

/-- NackSurfacesAtTheNextWait: the traces of the failing witnesses at sites 1, 2, 3, 5 and 6 are ones the contract admits
for a slave that NACKs the address byte, the register byte, the read-direction address byte or payload byte 0, and those
of `test_witness_write_site7` and `test_witness_write_success` for one that NACKs the last payload byte. -/
theorem test_witness_nack_contract :
    i2cContract [false]
      ([.i2cCr2 0x0EC false 1 false true] ++ List.replicate (polls .s1) (.i2cPoll .txis false)) = true ∧
    i2cContract [true, false]
      ([.i2cCr2 0x0EC false 1 false true, .i2cPoll .txis true, .i2cTx 0] ++
        List.replicate (polls .s2) (.i2cPoll .tc false)) = true ∧
    i2cContract [true, true, false]
      ([.i2cCr2 0x0EC false 1 false true, .i2cPoll .txis true, .i2cTx 0, .i2cPoll .tc true,
        .i2cCr2 0x0EC true 3 false true] ++ List.replicate (polls .s3) (.i2cPoll .rxne false)) = true ∧
    i2cContract [false]
      ([.i2cCr2 0x0EC false 3 true true] ++ List.replicate (polls .s5) (.i2cPoll .txis false)) = true ∧
    i2cContract [true, false]
      ([.i2cCr2 0x0EC false 3 true true, .i2cPoll .txis true, .i2cTx 0xF4] ++
        List.replicate (polls .s6) (.i2cPoll .txis false)) = true ∧
    i2cContract [true, true, false]
      ([.i2cCr2 0x0EC false 3 true true, .i2cPoll .txis true, .i2cTx 0xF4, .i2cPoll .txis true,
        .i2cTx (Config.bufAtReset .i2ce 0 0)] ++ List.replicate (polls .s6) (.i2cPoll .txis false)) = true ∧
    i2cContract [true, true, false]
      (newEvents .i2ce (i2cReady [true, true, true] [])
        (after (.i2cWrite 0x76 0xF4 1) 8 (i2cReady [true, true, true] []))) = true := by
  refine ⟨?_, ?_, ?_, ?_, ?_, ?_, rfl⟩ <;> simp only [i2cContract, RefI2c.run_append] <;>
    exact congrArg Option.isSome (RefI2c.run_missed (by decide) _)

/-- 10_state R55 (a): TXE seen 0 with nothing written to DR, and seen 0 again once it was seen 1, are not admitted; either
answer is right after a DR write. -/
theorem test_contract_txe :
    spiContract false [.spiPoll .txe false] = false ∧
    spiContract false [.spiTx8 1, .spiPoll .txe true, .spiPoll .txe false] = false ∧
    spiContract false [.spiTx8 1, .spiPoll .txe false, .spiPoll .txe true, .spiPoll .rxne true] = true := by decide

/-- 10_state R48 (b), (d), (g): a flag seen 1 is not seen 0 before the event that clears it. -/
theorem test_contract_i2c_flags_stay :
    i2cContract [] [.i2cCr2 0x0EC false 2 true true, .i2cPoll .txis true, .i2cPoll .txis false] = false ∧
    i2cContract [] [.i2cCr2 0x0EC true 2 false true, .i2cPoll .rxne true, .i2cPoll .rxne false] = false ∧
    i2cContract [] [.i2cStop, .i2cPoll .stopf true, .i2cCr2 0x0EC true 2 false true, .i2cPoll .stopf false] = false ∧
    i2cContract [] [.i2cStop, .i2cPoll .stopf true, .i2cClrStopf, .i2cPoll .stopf false] = true := by decide

/-- 10_state R48 (e), (g): the STOP of a NACKed transfer leaves STOPF 1 for the next transfer's stop wait, which cannot see
0; after CLRSTOPF it can. -/
theorem test_contract_stale_stopf :
    i2cContract [false] [.i2cCr2 0x0EC false 2 true true, .i2cPoll .txis false, .i2cCr2 0x0EC false 2 true true,
      .i2cPoll .txis true, .i2cTx 1, .i2cPoll .stopf false] = false ∧
    i2cContract [false] [.i2cCr2 0x0EC false 2 true true, .i2cPoll .txis false, .i2cCr2 0x0EC false 2 true true,
      .i2cPoll .txis true, .i2cTx 1, .i2cPoll .stopf true] = true ∧
    i2cContract [] [.i2cCr2 0x0EC false 2 true true, .i2cPoll .txis true, .i2cTx 1, .i2cPoll .stopf false] = true := by
  decide

/-- 10_state R55 (c), 42_spi R183: with an echo device a read returns the value of the write it follows, an exchange left
unread before that write or not. -/
theorem test_contract_echo_last_write :
    spiContract true [.spiTx8 0x11, .spiTx8 0x22, .spiPoll .rxne true, .spiRx8 0x33] = false ∧
    spiContract true [.spiTx8 0x11, .spiTx8 0x22, .spiPoll .rxne true, .spiRx8 0x22] = true := by decide

/-- 10_state R55 (b): RXNE seen 1 is not seen 0 before a DR read. -/
theorem test_contract_rxne_stays :
    spiContract false [.spiTx8 1, .spiPoll .rxne true, .spiPoll .rxne false] = false ∧
    spiContract false [.spiTx8 1, .spiPoll .rxne true, .spiRx8 1, .spiPoll .rxne false] = true ∧
    spiContract false [.spiTx8 1, .spiPoll .rxne true, .spiRx8 1, .spiPoll .rxne true] = false := by decide

/-- 10_state R48 (b): a byte sent after a NACK sets TXIS no more. -/
theorem test_contract_nack_closes :
    i2cContract [false] [.i2cCr2 0x0EC false 3 true true, .i2cTx 1, .i2cPoll .txis true] = false ∧
    i2cContract [true, false] [.i2cCr2 0x0EC false 3 true true, .i2cTx 1, .i2cTx 2, .i2cPoll .txis true] = false := by
  decide

end Sys2Proof.Tests
end

section
/-! The micro-program tables as data. A row of 41_i2c R140-R142 and 42_spi R190-R193 is a value of `Row`, read off the
label; `exec_row` says that exec at a label of a command runs that row, and `Row.run_eq` what running a row does: one
event acts on the peripheral, and the engine goes to `Row.engine`. The later proofs argue about rows and do not unfold
the meanings of the commands. -/

namespace Sys2Proof.Machine

/-- What a row does (40_sequencer R112-R116). The outcome of a wait is that of its site (60_exceptions R222). -/
inductive MicroOp where
  | emit (ev : Event) (next : Label)
  | await (poll : Bool → Event) (site : Site) (res : BitVec 8) (next failLabel : Label)
  | receive (cut : BitVec 32 → BitVec 16) (ev : BitVec 16 → Event) (next : Label)
  | store (ev : Byte → Event) (again done : Label)
  | send (again done : Label)
  | finish (r : Result) (init : Bool)
  | finishDrawn

/-- A row of a micro-program table: the phase it sets, what it does, and its further assignments `idx <- 0` and
`CSDRV <- b`. -/
structure Row where
  phase : Option Phase
  op : MicroOp
  clearIdx : Bool
  csdrv : Option Bool

/-- A row that does one thing. -/
abbrev Row.plain (op : MicroOp) : Row := ⟨none, op, false, none⟩

/-- A row that also sets the phase. -/
abbrev Row.inPhase (p : Phase) (op : MicroOp) : Row := ⟨some p, op, false, none⟩

/-- The narrowing of an 8-bit read (40_sequencer R115). -/
abbrev cutByte (w : BitVec 32) : BitVec 16 := (w.setWidth 8).setWidth 16

/-- The row at the label of an engine (41_i2c R140-R142, 42_spi R190-R193). -/
def Engine.row (x : Engine) : Option Row :=
  match x.mpc with
  | .idle => none
  | .in0 => some (.inPhase .completion (.emit (.i2cClkSel Config.i2cClkSrc) .in1))
  | .in1 => some (.plain (.emit (.i2cPe false) .in2))
  | .in2 => some (.plain (.emit
      (.i2cTiming Config.i2cPresc Config.i2cScldel Config.i2cSdadel Config.i2cSclh Config.i2cScll) .in3))
  | .in3 => some (.plain (.emit (.i2cPe true) .in4))
  | .in4 => some (.plain (.finish (successResult x) true))
  | .rd0 => some (.inPhase .addressOrCommand (.emit (.i2cCr2 (saddOf x.latch.dev) false 1 false true) .rd1))
  | .rd1 => some (.plain (.await (.i2cPoll .txis) .s1 0 .rd2 .rdFail))
  | .rd2 => some (.plain (.emit (.i2cTx x.latch.reg) .rd3))
  | .rd3 => some (.plain (.await (.i2cPoll .tc) .s2 0 .rd4 .rdFail))
  | .rd4 => some ⟨some .data, .emit (.i2cCr2 (saddOf x.latch.dev) true x.latch.n false true) .rd5, true, none⟩
  | .rd5 => some (.plain (.await (.i2cPoll .rxne) .s3 (residualOf x.latch.n x.idx) .rd6 .rdFail))
  | .rd6 => some (.plain (.store Event.i2cRx .rd5 .rd7))
  | .rd7 => some (.inPhase .completion (.emit .i2cStop .rd8))
  | .rd8 => some (.plain (.await (.i2cPoll .stopf) .s4 0 .rd9 .rdFail))
  | .rd9 => some (.plain (.emit .i2cClrStopf .rd10))
  | .rd10 => some (.plain (.finish (successResult x) false))
  | .rdFail => some (.plain (.finish (failedResult x) false))
  | .wr0 => some (.inPhase .addressOrCommand
      (.emit (.i2cCr2 (saddOf x.latch.dev) false (writeLength x.latch.n) true true) .wr1))
  | .wr1 => some (.plain (.await (.i2cPoll .txis) .s5 0 .wr2 .wrFail))
  | .wr2 => some ⟨none, .emit (.i2cTx x.latch.reg) .wr3, true, none⟩
  | .wr3 => some (.inPhase .data (.await (.i2cPoll .txis) .s6 (residualOf x.latch.n x.idx) .wr4 .wrFail))
  | .wr4 => some (.plain (.send .wr3 .wr5))
  | .wr5 => some (.inPhase .completion (.await (.i2cPoll .stopf) .s7 0 .wr6 .wrFail))
  | .wr6 => some (.plain (.emit .i2cClrStopf .wr7))
  | .wr7 => some (.plain (.finish (successResult x) false))
  | .wrFail => some (.plain (.finish (failedResult x) false))
  | .si0 => some (.inPhase .completion (.emit (.spiSpe false) .si1))
  | .si1 => some (.plain (.emit (.spiCfg Config.spiBr) .si2))
  | .si2 => some ⟨none, .emit .csHigh .si3, false, some false⟩
  | .si3 => some (.plain (.emit (.spiSpe true) .si4))
  | .si4 => some (.plain (.finish (successResult x) true))
  | .x0 => some (.inPhase .addressOrCommand (.await (.spiPoll .txe) .s8 0 .x1 .xFail))
  | .x1 => some (.plain (.emit (.spiTx8 (lowData x.latch.data)) .x2))
  | .x2 => some (.inPhase .data (.await (.spiPoll .rxne) .s9 0 .x3 .xFail))
  | .x3 => some (.plain (.receive cutByte (fun t => .spiRx8 (t.setWidth 8)) .x4))
  | .x4 => some (.inPhase .completion (.finish ⟨.success, none, 0, (x.tmp.setWidth 8).setWidth 16⟩ false))
  | .xFail => some (.plain .finishDrawn)
  | .y0 => some (.inPhase .addressOrCommand (.await (.spiPoll .txe) .s8 0 .y1 .yFail))
  | .y1 => some (.plain (.emit (.spiTx16 x.latch.data) .y2))
  | .y2 => some (.inPhase .data (.await (.spiPoll .rxne) .s9 0 .y3 .yFail))
  | .y3 => some (.plain (.receive (fun w => w.setWidth 16) .spiRx16 .y4))
  | .y4 => some (.inPhase .completion (.finish ⟨.success, none, 0, x.tmp⟩ false))
  | .yFail => some (.plain .finishDrawn)
  | .b0 => some ⟨some .addressOrCommand, .emit .csLow .b1, false, some true⟩
  | .b1 => some (.plain (.await (.spiPoll .txe) .s10 0 .b2 .bf0))
  | .b2 => some (.plain (.emit (.spiTx8 (burstAddress x.latch.reg)) .b3))
  | .b3 => some (.plain (.await (.spiPoll .rxne) .s11 0 .b4 .bf0))
  | .b4 => some (.plain (.receive cutByte (fun t => .spiRx8 (t.setWidth 8)) .b5))
  | .b5 => some (.plain (.await (.spiPoll .txe) .s12 0 .b6 .bf0))
  | .b6 => some (.plain (.emit (.spiTx8 Config.spiDummy) .b7))
  | .b7 => some (.plain (.await (.spiPoll .rxne) .s13 0 .b8 .bf0))
  | .b8 => some (.plain (.receive cutByte (fun t => .spiRx8 (t.setWidth 8)) .b9))
  | .b9 => some (.plain (.await (.spiPoll .txe) .s14 0 .b10 .bf0))
  | .b10 => some (.plain (.emit (.spiTx8 Config.spiDummy) .b11))
  | .b11 => some (.plain (.await (.spiPoll .rxne) .s15 0 .b12 .bf0))
  | .b12 => some ⟨none, .receive cutByte (fun t => .spiRx8 (t.setWidth 8)) .b13, true, none⟩
  | .b13 => some (.inPhase .data (.await (.spiPoll .txe) .s16 (residualOf x.latch.n x.idx) .b14 .bf0))
  | .b14 => some (.plain (.emit (.spiTx8 Config.spiDummy) .b15))
  | .b15 => some (.plain (.await (.spiPoll .rxne) .s17 (residualOf x.latch.n x.idx) .b16 .bf0))
  | .b16 => some (.plain (.store Event.spiRx8 .b13 .b17))
  | .b17 => some ⟨some .completion, .emit .csHigh .b18, false, some false⟩
  | .b18 => some (.plain (.finish (successResult x) false))
  | .bf0 => some ⟨none, .emit .csHigh .bf1, false, some false⟩
  | .bf1 => some (.plain (.finish (failedResult x) false))

/-! ### Running a row with the model's operations -/

/-- What a row does first: its phase. -/
def Row.before (r : Row) (x : Engine) : Engine :=
  match r.phase with
  | some p => x.setPhase p
  | none => x

/-- What a row does last: its further assignments. -/
def Row.after (r : Row) (x : Engine) : Engine :=
  let y := if r.clearIdx then x.setIdx 0 else x
  match r.csdrv with
  | some b => y.setCsdrv b
  | none => y

/-- A row that reads or writes BUF[idx]. -/
def MicroOp.indexed : MicroOp → Bool
  | .store _ _ _ | .send _ _ => true
  | .emit _ _ | .await _ _ _ _ _ | .receive _ _ _ | .finish _ _ | .finishDrawn => false

/-- What a row does, by the model's operations of 40_sequencer. -/
def MicroOp.run (e : EngineId) (op : MicroOp) (s : State) : State :=
  match op with
  | .emit ev next => emitStep e ev next s
  | .await poll site res next failLabel => awaitStep e poll (siteOutcome site) site res next failLabel s
  | .receive cut ev next => (rxValue e cut ev s).onEngine e (Engine.goto next)
  | .store ev again done =>
    (rxByte e ev s).onEngine e fun x => (x.setBuf x.idx.toNat (x.tmp.setWidth 8)).advance again done
  | .send again done =>
    ((s.setEngine e (payloadByte e (s.engine e)).2).emit e (.i2cTx (payloadByte e (s.engine e)).1)).onEngine e
      (Engine.advance again done)
  | .finish r init => s.onEngine e fun x =>
      { x.finish r with status := { (x.finish r).status with init := init || x.status.init } }
  | .finishDrawn => finishFailedExchange e s

/-- A row run by the model's operations. -/
def Row.run (e : EngineId) (r : Row) (s : State) : Answer :=
  if r.op.indexed && !decide ((s.engine e).idx.toNat < Config.bufSize) then .fault (.bufIndex e)
  else .next ((r.op.run e (s.onEngine e r.before)).onEngine e r.after)

/-! ### exec runs the rows -/

theorem exec_i2cInit (s : State) : exec .i2cInit s = execI2cInit s := rfl
theorem exec_i2cRead (dev : BitVec 7) (reg n : BitVec 8) (s : State) :
    exec (.i2cRead dev reg n) s = execI2cRead dev reg n s := rfl
theorem exec_i2cWrite (dev : BitVec 7) (reg n : BitVec 8) (s : State) :
    exec (.i2cWrite dev reg n) s = execI2cWrite dev reg n s := rfl
theorem exec_spiInit (s : State) : exec .spiInit s = execSpiInit s := rfl
theorem exec_spiSr8 (data : BitVec 8) (s : State) : exec (.spiSr8 data) s = execSpiSr8 data s := rfl
theorem exec_spiSr16 (data : BitVec 16) (s : State) : exec (.spiSr16 data) s = execSpiSr16 data s := rfl
theorem exec_spiBurst (reg n : BitVec 8) (s : State) :
    exec (.spiBurst reg n) s = execSpiBurst reg n s := rfl

/-- A store row is guarded as `Row.run` guards it. -/
theorem rxStoreStep_eq_run (e : EngineId) (ev : Byte → Event) (again done : Label) (s : State) :
    rxStoreStep e ev again done s = (Row.plain (.store ev again done)).run e s := by
  unfold rxStoreStep Row.run
  by_cases h : (s.engine e).idx.toNat < Config.bufSize <;> simp only [h] <;> cases e <;> rfl

/-- A payload row is guarded as `Row.run` guards it. -/
theorem txPayloadStep_eq_run (e : EngineId) (again done : Label) (s : State) :
    txPayloadStep e again done s = (Row.plain (.send again done)).run e s := by
  unfold txPayloadStep Row.run
  by_cases h : (s.engine e).idx.toNat < Config.bufSize <;> simp only [h] <;> cases e <;> rfl

theorem exec_row_i2cInit {s : State} (h : labelOpcode s.i2c.mpc = some 0x1) :
    ∃ r, s.i2c.row = some r ∧ exec .i2cInit s = r.run .i2ce s := by
  cases hl : s.i2c.mpc <;> simp [hl, labelOpcode] at h <;>
    simp only [Engine.row, hl, exec_i2cInit, execI2cInit] <;> exact ⟨_, rfl, rfl⟩

theorem exec_row_i2cRead (dev : BitVec 7) (reg n : BitVec 8) {s : State} (h : labelOpcode s.i2c.mpc = some 0x2) :
    ∃ r, s.i2c.row = some r ∧ exec (.i2cRead dev reg n) s = r.run .i2ce s := by
  cases hl : s.i2c.mpc <;> simp [hl, labelOpcode] at h <;>
    simp only [Engine.row, hl, exec_i2cRead, execI2cRead, rxStoreStep_eq_run] <;> exact ⟨_, rfl, rfl⟩

theorem exec_row_i2cWrite (dev : BitVec 7) (reg n : BitVec 8) {s : State} (h : labelOpcode s.i2c.mpc = some 0x3) :
    ∃ r, s.i2c.row = some r ∧ exec (.i2cWrite dev reg n) s = r.run .i2ce s := by
  cases hl : s.i2c.mpc <;> simp [hl, labelOpcode] at h <;>
    simp only [Engine.row, hl, exec_i2cWrite, execI2cWrite, txPayloadStep_eq_run] <;> exact ⟨_, rfl, rfl⟩

theorem exec_row_spiInit {s : State} (h : labelOpcode s.spi.mpc = some 0x9) :
    ∃ r, s.spi.row = some r ∧ exec .spiInit s = r.run .spie s := by
  cases hl : s.spi.mpc <;> simp [hl, labelOpcode] at h <;>
    simp only [Engine.row, hl, exec_spiInit, execSpiInit] <;> exact ⟨_, rfl, rfl⟩

theorem exec_row_spiSr8 (data : BitVec 8) {s : State} (h : labelOpcode s.spi.mpc = some 0xA) :
    ∃ r, s.spi.row = some r ∧ exec (.spiSr8 data) s = r.run .spie s := by
  cases hl : s.spi.mpc <;> simp [hl, labelOpcode] at h <;>
    simp only [Engine.row, hl, exec_spiSr8, execSpiSr8] <;> exact ⟨_, rfl, rfl⟩

theorem exec_row_spiSr16 (data : BitVec 16) {s : State} (h : labelOpcode s.spi.mpc = some 0xB) :
    ∃ r, s.spi.row = some r ∧ exec (.spiSr16 data) s = r.run .spie s := by
  cases hl : s.spi.mpc <;> simp [hl, labelOpcode] at h <;>
    simp only [Engine.row, hl, exec_spiSr16, execSpiSr16] <;> exact ⟨_, rfl, rfl⟩

theorem exec_row_spiBurst (reg n : BitVec 8) {s : State} (h : labelOpcode s.spi.mpc = some 0xC) :
    ∃ r, s.spi.row = some r ∧ exec (.spiBurst reg n) s = r.run .spie s := by
  cases hl : s.spi.mpc <;> simp [hl, labelOpcode] at h <;>
    simp only [Engine.row, hl, exec_spiBurst, execSpiBurst, rxStoreStep_eq_run] <;> exact ⟨_, rfl, rfl⟩

/-- At a label of its micro-program a command runs the row of that label (40_sequencer R111). -/
theorem exec_row {i : Instr} {s : State} (h : labelOpcode (s.engine i.engine).mpc = some i.opcode) :
    ∃ r, (s.engine i.engine).row = some r ∧ exec i s = r.run i.engine s := by
  cases i with
  | i2cInit => exact exec_row_i2cInit h
  | i2cRead dev reg n => exact exec_row_i2cRead dev reg n h
  | i2cWrite dev reg n => exact exec_row_i2cWrite dev reg n h
  | spiInit => exact exec_row_spiInit h
  | spiSr8 data => exact exec_row_spiSr8 data h
  | spiSr16 data => exact exec_row_spiSr16 data h
  | spiBurst reg n => exact exec_row_spiBurst reg n h

/-- At IDLE a command is issued (40_sequencer R110). -/
theorem exec_idle {i : Instr} {s : State} (h : (s.engine i.engine).mpc = .idle) :
    exec i s = .next (issueCommand i (firstRow i).1 s) := by
  cases i <;> simp only [Instr.engine, State.engine_i2ce, State.engine_spie] at h <;>
    simp only [exec, execI2cInit, execI2cRead, execI2cWrite, execSpiInit, execSpiSr8, execSpiSr16, execSpiBurst, h,
      firstRow]

/-- At a label of another command a command stops (10_state R37, log 17). -/
theorem exec_stray {i : Instr} {s : State} (h : (s.engine i.engine).mpc ≠ .idle)
    (h' : labelOpcode (s.engine i.engine).mpc ≠ some i.opcode) : exec i s = .fault (.strayLabel i.engine) := by
  cases i <;> simp only [Instr.engine, Instr.opcode, State.engine_i2ce, State.engine_spie] at h h' ⊢ <;>
    simp only [exec, execI2cInit, execI2cRead, execI2cWrite, execSpiInit, execSpiSr8, execSpiSr16, execSpiBurst] <;>
    split <;> simp_all [labelOpcode]

/-! ### What a row does to its engine, and the event it emits -/

/-- The event of a row, if it emits one. -/
def MicroOp.event (e : EngineId) (op : MicroOp) (x : Engine) : Option Event :=
  match op with
  | .emit ev _ => some ev
  | .await poll _ _ _ _ => some (poll (x.env.drawFlag e).1)
  | .receive cut ev _ => some (ev (cut (x.env.drawValue e).1))
  | .store ev _ _ => some (ev ((x.env.drawValue e).1.setWidth 8))
  | .send _ _ => some (.i2cTx (payloadByte e x).1)
  | .finish _ _ | .finishDrawn => none

/-- The engine after a poll joined its trace. -/
def Engine.polled (e : EngineId) (poll : Bool → Event) (x : Engine) : Engine :=
  { x with env := (x.env.drawFlag e).2, trace := x.trace ++ [poll (x.env.drawFlag e).1] }

/-- The engine after a receive joined its trace. -/
def Engine.received (e : EngineId) (cut : BitVec 32 → BitVec 16) (ev : BitVec 16 → Event) (x : Engine) : Engine :=
  { x with
    env := (x.env.drawValue e).2
    tmp := cut (x.env.drawValue e).1
    trace := x.trace ++ [ev (cut (x.env.drawValue e).1)] }

/-- The engine after a row's operation. -/
def MicroOp.engine (e : EngineId) (op : MicroOp) (x : Engine) : Engine :=
  match op with
  | .emit ev next => (x.append ev).goto next
  | .await poll site res next failLabel =>
    if (x.env.drawFlag e).1 then (x.polled e poll).goto next
    else (x.polled e poll).missedPoll (siteOutcome site) site res failLabel
  | .receive cut ev next => (x.received e cut ev).goto next
  | .store ev again done =>
    ((x.received e cutByte fun t => ev (t.setWidth 8)).setBuf x.idx.toNat ((x.env.drawValue e).1.setWidth 8)).advance
      again done
  | .send again done => ((payloadByte e x).2.append (.i2cTx (payloadByte e x).1)).advance again done
  | .finish r init => { x.finish r with status := { (x.finish r).status with init := init || x.status.init } }
  | .finishDrawn =>
    ({ x with env := (x.env.drawValue e).2 }).finish
      ⟨x.fail.oc, x.fail.site, x.fail.res, (x.env.drawValue e).1.setWidth 16⟩

/-- The event of a row. -/
def Row.event (e : EngineId) (r : Row) (x : Engine) : Option Event := r.op.event e (r.before x)

/-- The engine after a row. -/
def Row.engine (e : EngineId) (r : Row) (x : Engine) : Engine := r.after (r.op.engine e (r.before x))

/-- The peripherals and the CS line after the event of a row, if it emits one. -/
def State.observed (s : State) : Option Event → State
  | some ev => s.applyEvent ev
  | none => s

/-- Cutting a byte twice cuts it once. -/
theorem cutByte_byte (w : BitVec 32) : (cutByte w).setWidth 8 = w.setWidth 8 := by
  ext k
  simp

theorem State.applyEvent_setEngine (s : State) (e : EngineId) (x : Engine) (ev : Event) :
    (s.setEngine e x).applyEvent ev = (s.applyEvent ev).setEngine e x := by
  cases e <;> cases ev <;> rfl

theorem State.setEngine_setEngine (s : State) (e : EngineId) (x y : Engine) :
    (s.setEngine e x).setEngine e y = s.setEngine e y := by
  cases e <;> rfl

theorem State.engine_applyEvent (s : State) (e : EngineId) (ev : Event) :
    (s.applyEvent ev).engine e = s.engine e := by
  cases e <;> simp

theorem State.engine_observed (s : State) (e : EngineId) (o : Option Event) : (s.observed o).engine e = s.engine e := by
  cases o with
  | none => rfl
  | some ev => exact s.engine_applyEvent e ev

theorem State.observed_setEngine (s : State) (e : EngineId) (x : Engine) (o : Option Event) :
    (s.setEngine e x).observed o = (s.observed o).setEngine e x := by
  cases o with
  | none => rfl
  | some ev => exact s.applyEvent_setEngine e x ev

/-- Running an operation: its event acts outside the engine, the engine goes where `MicroOp.engine` says. -/
theorem MicroOp.run_eq (e : EngineId) (op : MicroOp) (s : State) :
    op.run e s = (s.observed (op.event e (s.engine e))).setEngine e (op.engine e (s.engine e)) := by
  cases op with
  | emit ev next => exact emitStep_eq s e ev next
  | await poll site res next failLabel =>
    simp only [MicroOp.run, awaitStep, MicroOp.event, MicroOp.engine, State.emit, State.onEngine,
      State.applyEvent_setEngine, State.engine_setEngine, State.setEngine_setEngine, State.observed]
    split <;> rfl
  | receive cut ev next =>
    simp only [MicroOp.run, rxValue_eq, State.onEngine, State.engine_setEngine, State.setEngine_setEngine]
    rfl
  | store ev again done =>
    simp only [MicroOp.run, rxByte, rxValue_eq, State.onEngine, State.engine_setEngine, State.setEngine_setEngine,
      cutByte_byte, MicroOp.event, MicroOp.engine, Engine.received, State.observed]
  | send again done =>
    simp only [MicroOp.run, State.emit, State.onEngine, State.applyEvent_setEngine, State.engine_setEngine,
      State.setEngine_setEngine, MicroOp.event, MicroOp.engine, State.observed]
  | finish r init => rfl
  | finishDrawn => exact finishFailedExchange_eq e s

/-- Running a row answers a next state unless it needs a byte past BUF. -/
theorem Row.run_eq (e : EngineId) (r : Row) (s : State) :
    r.run e s =
      if r.op.indexed && !decide ((s.engine e).idx.toNat < Config.bufSize) then .fault (.bufIndex e)
      else .next ((s.observed (r.event e (s.engine e))).setEngine e (r.engine e (s.engine e))) := by
  simp only [Row.run, MicroOp.run_eq, State.onEngine, State.engine_setEngine, State.setEngine_setEngine,
    State.observed_setEngine, Row.event, Row.engine]

end Sys2Proof.Machine
end

section
/-! What each operation of a row leaves in each field of its engine. -/

namespace Sys2Proof.Machine

section Fields
variable (x : Engine) (oc : OutcomeCode) (site : Site) (res : BitVec 8) (failLabel again done : Label) (e : EngineId)

@[simp] theorem Engine.missedPoll_cmd : (x.missedPoll oc site res failLabel).cmd = x.cmd := by
  unfold Engine.missedPoll Engine.failEntry; split <;> simp
@[simp] theorem Engine.missedPoll_status : (x.missedPoll oc site res failLabel).status = x.status := by
  unfold Engine.missedPoll Engine.failEntry; split <;> simp
@[simp] theorem Engine.missedPoll_result : (x.missedPoll oc site res failLabel).result = x.result := by
  unfold Engine.missedPoll Engine.failEntry; split <;> simp
@[simp] theorem Engine.missedPoll_buf : (x.missedPoll oc site res failLabel).buf = x.buf := by
  unfold Engine.missedPoll Engine.failEntry; split <;> simp
@[simp] theorem Engine.missedPoll_bufEpoch : (x.missedPoll oc site res failLabel).bufEpoch = x.bufEpoch := by
  unfold Engine.missedPoll Engine.failEntry; split <;> simp
@[simp] theorem Engine.missedPoll_idx : (x.missedPoll oc site res failLabel).idx = x.idx := by
  unfold Engine.missedPoll Engine.failEntry; split <;> simp
@[simp] theorem Engine.missedPoll_latch : (x.missedPoll oc site res failLabel).latch = x.latch := by
  unfold Engine.missedPoll Engine.failEntry; split <;> simp
@[simp] theorem Engine.missedPoll_tmp : (x.missedPoll oc site res failLabel).tmp = x.tmp := by
  unfold Engine.missedPoll Engine.failEntry; split <;> simp
@[simp] theorem Engine.missedPoll_faults : (x.missedPoll oc site res failLabel).faults = x.faults := by
  unfold Engine.missedPoll Engine.failEntry; split <;> simp
@[simp] theorem Engine.missedPoll_trace : (x.missedPoll oc site res failLabel).trace = x.trace := by
  unfold Engine.missedPoll Engine.failEntry; split <;> simp
@[simp] theorem Engine.missedPoll_env : (x.missedPoll oc site res failLabel).env = x.env := by
  unfold Engine.missedPoll Engine.failEntry; split <;> simp
@[simp] theorem Engine.missedPoll_contested : (x.missedPoll oc site res failLabel).contested = x.contested := by
  unfold Engine.missedPoll Engine.failEntry; split <;> simp

@[simp] theorem Engine.advance_cmd : (x.advance again done).cmd = x.cmd := by simp [Engine.advance_eq]
@[simp] theorem Engine.advance_status : (x.advance again done).status = x.status := by simp [Engine.advance_eq]
@[simp] theorem Engine.advance_result : (x.advance again done).result = x.result := by simp [Engine.advance_eq]
@[simp] theorem Engine.advance_buf : (x.advance again done).buf = x.buf := by simp [Engine.advance_eq]
@[simp] theorem Engine.advance_bufEpoch : (x.advance again done).bufEpoch = x.bufEpoch := by simp [Engine.advance_eq]
@[simp] theorem Engine.advance_mpc :
    (x.advance again done).mpc = if morePayload x.latch.n (x.idx + 1#9) then again else done := by
  simp [Engine.advance_eq]
@[simp] theorem Engine.advance_idx : (x.advance again done).idx = x.idx + 1#9 := by simp [Engine.advance_eq]
@[simp] theorem Engine.advance_latch : (x.advance again done).latch = x.latch := by simp [Engine.advance_eq]
@[simp] theorem Engine.advance_fail : (x.advance again done).fail = x.fail := by simp [Engine.advance_eq]
@[simp] theorem Engine.advance_tmp : (x.advance again done).tmp = x.tmp := by simp [Engine.advance_eq]
@[simp] theorem Engine.advance_faults : (x.advance again done).faults = x.faults := by simp [Engine.advance_eq]
@[simp] theorem Engine.advance_trace : (x.advance again done).trace = x.trace := by simp [Engine.advance_eq]
@[simp] theorem Engine.advance_env : (x.advance again done).env = x.env := by simp [Engine.advance_eq]
@[simp] theorem Engine.advance_contested : (x.advance again done).contested = x.contested := by
  simp [Engine.advance_eq]

/-- Fetching the payload byte changes the environment alone. -/
theorem payloadByte_engine_eq : (payloadByte e x).2 = { x with env := (payloadByte e x).2.env } := by
  obtain ⟨env, h⟩ := payloadByte_engine e x
  rw [h]

@[simp] theorem payloadByte_cmd : (payloadByte e x).2.cmd = x.cmd := by rw [payloadByte_engine_eq]
@[simp] theorem payloadByte_status : (payloadByte e x).2.status = x.status := by rw [payloadByte_engine_eq]
@[simp] theorem payloadByte_result : (payloadByte e x).2.result = x.result := by rw [payloadByte_engine_eq]
@[simp] theorem payloadByte_buf : (payloadByte e x).2.buf = x.buf := by rw [payloadByte_engine_eq]
@[simp] theorem payloadByte_bufEpoch : (payloadByte e x).2.bufEpoch = x.bufEpoch := by rw [payloadByte_engine_eq]
@[simp] theorem payloadByte_idx : (payloadByte e x).2.idx = x.idx := by rw [payloadByte_engine_eq]
@[simp] theorem payloadByte_latch : (payloadByte e x).2.latch = x.latch := by rw [payloadByte_engine_eq]
@[simp] theorem payloadByte_fail : (payloadByte e x).2.fail = x.fail := by rw [payloadByte_engine_eq]
@[simp] theorem payloadByte_tmp : (payloadByte e x).2.tmp = x.tmp := by rw [payloadByte_engine_eq]
@[simp] theorem payloadByte_faults : (payloadByte e x).2.faults = x.faults := by rw [payloadByte_engine_eq]
@[simp] theorem payloadByte_trace : (payloadByte e x).2.trace = x.trace := by rw [payloadByte_engine_eq]
@[simp] theorem payloadByte_contested : (payloadByte e x).2.contested = x.contested := by rw [payloadByte_engine_eq]

end Fields

/-! ### The two ends of a row -/

/-- The phase comes first and is all that `Row.before` changes. -/
theorem Row.before_eq (r : Row) (x : Engine) :
    r.before x = { x with status := { x.status with phase := r.phase.getD x.status.phase } } := by
  obtain ⟨phase, op, clearIdx, csdrv⟩ := r
  cases phase <;> rfl

/-- idx and CSDRV come last and are all that `Row.after` changes. -/
theorem Row.after_eq (r : Row) (x : Engine) :
    r.after x =
      { x with
        idx := if r.clearIdx then 0 else x.idx
        status := { x.status with csdrv := r.csdrv.getD x.status.csdrv } } := by
  obtain ⟨phase, op, clearIdx, csdrv⟩ := r
  cases clearIdx <;> cases csdrv <;> rfl

/-! ### What every row leaves -/

/-- What no row of a micro-program changes: CMD, the latches, the fault set, REJ, and the model's own `contested` and
`bufEpoch` (40_sequencer R110, R111). -/
structure Engine.SameCommand (x y : Engine) : Prop where
  cmd : y.cmd = x.cmd
  latch : y.latch = x.latch
  faults : y.faults = x.faults
  rej : y.status.rej = x.status.rej
  contested : y.contested = x.contested
  bufEpoch : y.bufEpoch = x.bufEpoch

/-- A row that ends its command. -/
def MicroOp.finishes : MicroOp → Bool
  | .finish _ _ | .finishDrawn => true
  | .emit _ _ | .await _ _ _ _ _ | .receive _ _ _ | .store _ _ _ | .send _ _ => false

section Rows
variable (e : EngineId) (op : MicroOp) (r : Row) (x : Engine)

theorem MicroOp.engine_sameCommand : x.SameCommand (op.engine e x) := by
  cases op <;> simp only [MicroOp.engine] <;> (try split) <;> constructor <;> simp [Engine.polled, Engine.received]

theorem Row.engine_sameCommand : x.SameCommand (r.engine e x) := by
  obtain ⟨hcmd, hlatch, hfaults, hrej, hcontested, hepoch⟩ := r.op.engine_sameCommand e (r.before x)
  rw [Row.before_eq] at *
  constructor <;> simp only [Row.engine, Row.after_eq, Row.before_eq] <;> assumption

/-- Every event of a row joins the trace, and nothing else does (10_state R41). -/
theorem MicroOp.engine_trace : (op.engine e x).trace = x.trace ++ (op.event e x).toList := by
  cases op <;> simp only [MicroOp.engine, MicroOp.event] <;> (try split) <;>
    simp [Engine.polled, Engine.received]

theorem Row.engine_trace : (r.engine e x).trace = x.trace ++ (r.event e x).toList := by
  simp [Row.engine, Row.after_eq, Row.event, MicroOp.engine_trace, Row.before_eq]

/-- A row that does not end its command leaves RESULT and the flags BUSY, VALID and INIT (40_sequencer R116). -/
theorem MicroOp.engine_unfinished (h : op.finishes = false) :
    (op.engine e x).result = x.result ∧ (op.engine e x).status = x.status := by
  cases op <;> simp only [MicroOp.finishes, reduceCtorEq] at h <;> simp only [MicroOp.engine] <;> (try split) <;>
    simp [Engine.polled, Engine.received]

theorem Row.engine_unfinished (h : r.op.finishes = false) :
    (r.engine e x).result = x.result ∧ (r.engine e x).status.busy = x.status.busy ∧
      (r.engine e x).status.valid = x.status.valid ∧ (r.engine e x).status.init = x.status.init := by
  obtain ⟨hresult, hstatus⟩ := r.op.engine_unfinished e (r.before x) h
  simp only [Row.engine, Row.after_eq, hresult, hstatus]
  simp [Row.before_eq]

/-- A row that ends its command sets VALID, clears BUSY and goes to IDLE (40_sequencer R116). -/
theorem Row.engine_finished (h : r.op.finishes = true) :
    (r.engine e x).status.busy = false ∧ (r.engine e x).status.valid = true ∧ (r.engine e x).mpc = .idle ∧
      (x.status.init = true → (r.engine e x).status.init = true) := by
  obtain ⟨phase, op, clearIdx, csdrv⟩ := r
  cases op <;> simp only [MicroOp.finishes, reduceCtorEq] at h <;>
    simp +contextual [Row.engine, Row.after_eq, Row.before_eq, MicroOp.engine]

/-- CSDRV after a row (42_spi R172). -/
theorem Row.engine_csdrv : (r.engine e x).status.csdrv = r.csdrv.getD x.status.csdrv := by
  have h : (r.op.engine e (r.before x)).status.csdrv = x.status.csdrv := by
    rw [Row.before_eq]
    cases r.op <;> simp only [MicroOp.engine] <;> (try split) <;> simp [Engine.polled, Engine.received]
  simp [Row.engine, Row.after_eq, h]

/-- Only RX -> BUF[idx] writes BUF (10_state R30). -/
theorem Row.engine_buf (h : ∀ ev again done, r.op ≠ .store ev again done) : (r.engine e x).buf = x.buf := by
  rw [Row.engine, Row.after_eq, Row.before_eq]
  cases hop : r.op <;> simp only [MicroOp.engine] <;> (try split) <;> simp [Engine.polled, Engine.received]
  exact absurd hop (h _ _ _)

/-- RX -> BUF[idx] writes that byte (40_sequencer R115). -/
theorem Row.engine_buf_store {ev : Byte → Event} {again done : Label} (h : r.op = .store ev again done) :
    (r.engine e x).buf = x.buf.write x.idx.toNat ((x.env.drawValue e).1.setWidth 8) := by
  simp [Row.engine, Row.after_eq, Row.before_eq, h, MicroOp.engine, Engine.received]

/-- A row keeps BUF canonical (10_state R30). -/
theorem Row.engine_buf_wf (hx : x.buf.wf = true) (hi : r.op.indexed = true → x.idx.toNat < Config.bufSize) :
    (r.engine e x).buf.wf = true := by
  by_cases h : ∃ ev again done, r.op = .store ev again done
  · obtain ⟨ev, again, done, h⟩ := h
    rw [r.engine_buf_store e x h]
    exact Memory.wf_write _ _ _ hx (hi (by rw [h]; rfl))
  · rw [r.engine_buf e x fun ev again done h' => h ⟨ev, again, done, h'⟩]
    exact hx

end Rows

/-! ### What one step of a command does -/

/-- One step of the command `i` on its engine, with the event it emits: the engine at IDLE accepts `i` or rejects it
(40_sequencer R110, 30_encoding R94), and at a label of the micro-program it runs the row (R111). -/
inductive ExecMove (i : Instr) (x : Engine) : Option Event → Engine → Prop where
  | accepted (idle : x.mpc = .idle) (wf : i.wellFormed = true) :
    ExecMove i x none (x.accept i (firstRow i).1)
  | rejected (idle : x.mpc = .idle) (wf : i.wellFormed = false) :
    ExecMove i x none { x with status := { x.status with rej := true } }
  | ran (r : Row) (label : labelOpcode x.mpc = some i.opcode) (row : x.row = some r)
      (inBuf : r.op.indexed = true → x.idx.toNat < Config.bufSize) :
    ExecMove i x (r.event i.engine x) (r.engine i.engine x)

/-- exec of a command is one move of its engine, whose event acts on the peripheral; it looks at that engine alone. -/
theorem exec_next_iff {i : Instr} {s t : State} :
    exec i s = .next t ↔
      ∃ o y, ExecMove i (s.engine i.engine) o y ∧ t = (s.observed o).setEngine i.engine y := by
  by_cases hidle : (s.engine i.engine).mpc = .idle
  · have hlabel : labelOpcode (s.engine i.engine).mpc ≠ some i.opcode := by simp [hidle, labelOpcode]
    rw [exec_idle hidle]
    obtain ⟨hwf, h⟩ | ⟨hwf, h⟩ := issueCommand_cases i (firstRow i).1 s <;> rw [h] <;>
      simp only [Host.Outcome.next.injEq]
    · constructor
      · rintro rfl
        exact ⟨_, _, .accepted hidle hwf, rfl⟩
      · rintro ⟨_, _, h | ⟨_, hwf'⟩ | ⟨_, hl⟩, rfl⟩
        · rfl
        · simp [hwf] at hwf'
        · exact absurd hl hlabel
    · constructor
      · rintro rfl
        exact ⟨_, _, .rejected hidle hwf, rfl⟩
      · rintro ⟨_, _, ⟨_, hwf'⟩ | h | ⟨_, hl⟩, rfl⟩
        · simp [hwf] at hwf'
        · rfl
        · exact absurd hl hlabel
  · by_cases hlabel : labelOpcode (s.engine i.engine).mpc = some i.opcode
    · obtain ⟨r, hrow, hexec⟩ := exec_row hlabel
      rw [hexec, Row.run_eq]
      constructor
      · intro h
        split at h
        · cases h
        · next hin =>
          refine ⟨_, _, .ran r hlabel hrow ?_, (by simpa using h.symm)⟩
          simpa using hin
      · rintro ⟨_, _, ⟨h, _⟩ | ⟨h, _⟩ | ⟨r', _, hrow', hin⟩, rfl⟩
        · exact absurd h hidle
        · exact absurd h hidle
        · obtain rfl : r = r' := by simpa [hrow] using hrow'
          rw [if_neg (by simpa using hin)]
    · rw [exec_stray hidle hlabel]
      constructor
      · intro h; cases h
      · rintro ⟨_, _, ⟨h, _⟩ | ⟨h, _⟩ | ⟨_, h, _⟩, _⟩
        · exact absurd h hidle
        · exact absurd h hidle
        · exact absurd h hlabel

end Sys2Proof.Machine
end

section
/-! The row tables, checked label by label: where each row leads, whose event it emits. And the decoder: a word that
decodes is the encoding of its command. -/

namespace Sys2Proof.Machine

/-- The label `next` comes after a row `r` at the label `l` within one micro-program: same command, and CSDRV is right
there for what the row does to it (42_spi R172). -/
def Row.LeadsTo (r : Row) (l next : Label) : Prop :=
  labelOpcode next = labelOpcode l ∧ selectedAt next = r.csdrv.getD (selectedAt l)

/-- What the tables of 41_i2c R140-R142 and 42_spi R190-R193 fix about a row at the label of an engine. -/
def Row.Fits (x : Engine) (r : Row) : Prop :=
  match r.op with
  | .emit _ next | .receive _ _ next =>
    r.LeadsTo x.mpc next ∧ (payloadAt next = true → r.clearIdx = true ∨ payloadAt x.mpc = true) ∧
      (failingAt next = true → failingAt x.mpc = true)
  | .await _ site res next failLabel =>
    awaitSite x.mpc = some site ∧ r.clearIdx = false ∧ r.csdrv = none ∧ r.LeadsTo x.mpc next ∧
      r.LeadsTo x.mpc failLabel ∧ (payloadAt next = true → payloadAt x.mpc = true) ∧ payloadAt failLabel = false ∧
      failingAt x.mpc = false ∧ failingAt next = false ∧
      (if residualSite site then payloadAt x.mpc = true ∧ res = residualOf x.latch.n x.idx else res = 0)
  | .store _ again done | .send again done =>
    r.clearIdx = false ∧ r.LeadsTo x.mpc again ∧ r.LeadsTo x.mpc done ∧ payloadAt x.mpc = true ∧
      payloadAt done = false ∧ failingAt again = false ∧ failingAt done = false
  | .finish res _ =>
    r.csdrv = none ∧ selectedAt x.mpc = false ∧ finishesAt x.mpc = true ∧
      ((res.outcome = .success ∧ res.failsite = none ∧ res.residual = 0) ∨
        (res = failedResult x ∧ failingAt x.mpc = true))
  | .finishDrawn =>
    r.csdrv = none ∧ selectedAt x.mpc = false ∧ finishesAt x.mpc = true ∧ failingAt x.mpc = true

/-- Every row of the tables fits. -/
theorem Engine.row_fits {x : Engine} {r : Row} (h : x.row = some r) : r.Fits x := by
  cases hl : x.mpc <;> simp only [Engine.row, hl, reduceCtorEq, Option.some.injEq] at h <;> subst h <;>
    simp [Row.Fits, Row.LeadsTo, hl, labelOpcode, selectedAt, payloadAt, failingAt, finishesAt, awaitSite,
      residualSite, successResult]

/-- A label past IDLE has a row. -/
theorem Engine.row_isSome {x : Engine} (h : x.mpc ≠ .idle) : ∃ r, x.row = some r := by
  cases hl : x.mpc
  case idle => exact absurd hl h
  all_goals exact ⟨_, by rw [Engine.row, hl]⟩

/-! ### Whose event it is (10_state R40) -/

/-- The engine whose peripheral an event belongs to; the CS line is SPIE's (10_state R40, R56). -/
def Event.owner : Event → EngineId
  | .i2cClkSel _ | .i2cPe _ | .i2cTiming _ _ _ _ _ | .i2cCr2 _ _ _ _ _ | .i2cStop | .i2cTx _ | .i2cRx _ | .i2cPoll _ _
  | .i2cClrStopf => .i2ce
  | .spiSpe _ | .spiCfg _ | .spiTx8 _ | .spiTx16 _ | .spiRx8 _ | .spiRx16 _ | .spiPoll _ _ | .csHigh | .csLow => .spie

/-- OP[3] names the engine (30_encoding R95). -/
theorem instr_engine_eq (i : Instr) : i.engine = if i.opcode.getLsbD 3 then .spie else .i2ce := by
  cases i <;> simp [Instr.engine, Instr.opcode]

/-- The events of a command's rows are its own engine's. -/
theorem Engine.row_event_owner {i : Instr} {x : Engine} {r : Row} (h : x.row = some r)
    (hl : labelOpcode x.mpc = some i.opcode) {e : EngineId} {ev : Event} (he : r.event e x = some ev) :
    ev.owner = i.engine := by
  rw [instr_engine_eq i]
  generalize i.opcode = op at hl
  cases hm : x.mpc <;> simp only [hm, labelOpcode, reduceCtorEq, Option.some.injEq] at hl <;> subst hl <;>
    simp only [Engine.row, hm, Option.some.injEq] at h <;> subst h <;>
    simp only [Row.event, MicroOp.event, reduceCtorEq, Option.some.injEq] at he <;> subst he <;> rfl

/-- An event leaves the peripheral of the other engine, and only SPIE's reach the CS line. -/
theorem State.applyEvent_owner_i2ce (s : State) {ev : Event} (h : ev.owner = .i2ce) :
    (s.applyEvent ev).spiPer = s.spiPer ∧ (s.applyEvent ev).cs = s.cs := by
  cases ev <;> first | exact ⟨rfl, rfl⟩ | cases h

theorem State.applyEvent_owner_spie (s : State) {ev : Event} (h : ev.owner = .spie) :
    (s.applyEvent ev).i2cPer = s.i2cPer := by
  cases ev <;> first | rfl | cases h

/-- What an event does to the fields and the line it acts on depends on those alone. -/
theorem State.applyEvent_congr {s u : State} (ev : Event) :
    (u.i2cPer = s.i2cPer → (u.applyEvent ev).i2cPer = (s.applyEvent ev).i2cPer) ∧
      (u.spiPer = s.spiPer → (u.applyEvent ev).spiPer = (s.applyEvent ev).spiPer) ∧
      (u.cs = s.cs → (u.applyEvent ev).cs = (s.applyEvent ev).cs) := by
  cases ev <;> simp +contextual

/-- The event of a move is its engine's. -/
theorem ExecMove.event_owner {i : Instr} {x y : Engine} {ev : Event} (h : ExecMove i x (some ev) y) :
    ev.owner = i.engine := by
  generalize ho : some ev = o at h
  cases h with
  | accepted => cases ho
  | rejected => cases ho
  | ran r hl hr => exact Engine.row_event_owner hr hl ho.symm

/-! ### The decoder (30_encoding R92, R97, R98) -/

/-- The bits a mask keeps, one by one. -/
theorem getLsbD_of_masked {w mask pattern : Word} (h : w &&& mask = pattern) (k : Nat) :
    (w.getLsbD k && mask.getLsbD k) = pattern.getLsbD k := by
  rw [← h, BitVec.getLsbD_and]

theorem encode_i2cRead_fields {w : Word} (h : w &&& 0x000080FF#32 = 0x00000002#32) :
    encode (.i2cRead (devField w) (regField w) (nField w)) = w := by
  refine BitVec.eq_of_getLsbD_eq fun k hk => ?_
  have hbit := getLsbD_of_masked h k
  clear h
  interval_cases k <;> simp_all [encode, devField, regField, nField]

theorem encode_i2cWrite_fields {w : Word} (h : w &&& 0x000080FF#32 = 0x00000003#32) :
    encode (.i2cWrite (devField w) (regField w) (nField w)) = w := by
  refine BitVec.eq_of_getLsbD_eq fun k hk => ?_
  have hbit := getLsbD_of_masked h k
  clear h
  interval_cases k <;> simp_all [encode, devField, regField, nField]

theorem encode_spiSr8_fields {w : Word} (h : w &&& 0xFF00FFFF#32 = 0x0000000A#32) :
    encode (.spiSr8 (data8Field w)) = w := by
  refine BitVec.eq_of_getLsbD_eq fun k hk => ?_
  have hbit := getLsbD_of_masked h k
  clear h
  interval_cases k <;> simp_all [encode, data8Field]

theorem encode_spiSr16_fields {w : Word} (h : w &&& 0x0000FFFF#32 = 0x0000000B#32) :
    encode (.spiSr16 (data16Field w)) = w := by
  refine BitVec.eq_of_getLsbD_eq fun k hk => ?_
  have hbit := getLsbD_of_masked h k
  clear h
  interval_cases k <;> simp_all [encode, data16Field]

theorem encode_spiBurst_fields {w : Word} (h : w &&& 0x0000FFFF#32 = 0x0000000C#32) :
    encode (.spiBurst (regField w) (nField w)) = w := by
  refine BitVec.eq_of_getLsbD_eq fun k hk => ?_
  have hbit := getLsbD_of_masked h k
  clear h
  interval_cases k <;> simp_all [encode, regField, nField]

/-- The row of an opcode rebuilds a word that matches its pattern, at its own engine (30_encoding R97, R98). -/
theorem opcodeRow_build {e : EngineId} {op : BitVec 4} {row : OpcodeRow} {build : Word → Instr} {w : Word}
    (h : opcodeRow e op = some (row, build)) (hw : w &&& row.mask = row.pattern) :
    encode (build w) = w ∧ (build w).engine = e := by
  cases e <;> simp only [opcodeRow] at h <;> split_ifs at h <;> cases h
  · exact ⟨hw.symm.trans BitVec.and_allOnes, rfl⟩
  · exact ⟨encode_i2cRead_fields hw, rfl⟩
  · exact ⟨encode_i2cWrite_fields hw, rfl⟩
  · exact ⟨hw.symm.trans BitVec.and_allOnes, rfl⟩
  · exact ⟨encode_spiSr8_fields hw, rfl⟩
  · exact ⟨encode_spiSr16_fields hw, rfl⟩
  · exact ⟨encode_spiBurst_fields hw, rfl⟩

/-- A word that decodes is the encoding of a well-formed command of that engine. -/
theorem decode_ok {e : EngineId} {w : Word} {i : Instr} (h : decode e w = .ok i) :
    encode i = w ∧ i.engine = e ∧ i.wellFormed = true := by
  unfold decode at h
  split at h
  · cases h
  · next row build hrow =>
    split at h
    · next hw =>
      split at h
      · cases h
      · next hrange =>
        cases h
        obtain ⟨hencode, hengine⟩ := opcodeRow_build hrow hw
        exact ⟨hencode, hengine, by simp [Instr.wellFormed, hrange]⟩
    · cases h

end Sys2Proof.Machine
end

section
/-! The invariant of an engine along the rows of its command, and at acceptance (O32's engine part). -/

namespace Sys2Proof.Machine

/-! ### Where a row leads -/

/-- The engine `y` stands at the label `l`, its budget loaded if `l` is an AWAIT (10_state R38). -/
structure Engine.ArrivedAt (y : Engine) (l : Label) : Prop where
  mpc : y.mpc = l
  budget : ∀ site, awaitSite l = some site → y.budget = Config.timeoutBudget site

/-- A goto arrives. -/
theorem Engine.goto_arrivedAt (x : Engine) (l : Label) : (x.goto l).ArrivedAt l where
  mpc := x.goto_mpc l
  budget := by
    intro site h
    simp [h]

section
variable {e : EngineId} {r : Row} {x : Engine}

/-- Where a row arrives depends on its operation alone. -/
theorem Row.arrivedAt {l : Label} (h : (r.op.engine e (r.before x)).ArrivedAt l) : (r.engine e x).ArrivedAt l where
  mpc := by simp [Row.engine, Row.after_eq, h.mpc]
  budget := by simpa [Row.engine, Row.after_eq] using h.budget

/-- EMIT goes to its success label (40_sequencer R114). -/
theorem Row.engine_emit {ev : Event} {next : Label} (h : r.op = .emit ev next) :
    (r.engine e x).ArrivedAt next ∧ (r.engine e x).idx = (if r.clearIdx then 0 else x.idx) ∧
      (r.engine e x).fail = x.fail := by
  refine ⟨Row.arrivedAt (by rw [h]; exact Engine.goto_arrivedAt _ _), ?_, ?_⟩ <;>
    simp [Row.engine, Row.after_eq, Row.before_eq, h, MicroOp.engine]

/-- RX goes to its success label (40_sequencer R115). -/
theorem Row.engine_receive {cut : BitVec 32 → BitVec 16} {ev : BitVec 16 → Event} {next : Label}
    (h : r.op = .receive cut ev next) :
    (r.engine e x).ArrivedAt next ∧ (r.engine e x).idx = (if r.clearIdx then 0 else x.idx) ∧
      (r.engine e x).fail = x.fail := by
  refine ⟨Row.arrivedAt (by rw [h]; exact Engine.goto_arrivedAt _ _), ?_, ?_⟩ <;>
    simp [Row.engine, Row.after_eq, Row.before_eq, h, MicroOp.engine, Engine.received]

/-- A wait goes on where its poll returned 1; at the last poll that its budget allows it fails; otherwise it stays and
its budget counts down (40_sequencer R112). -/
theorem Row.engine_await {poll : Bool → Event} {site : Site} {res : BitVec 8} {next failLabel : Label}
    (h : r.op = .await poll site res next failLabel) :
    ((x.env.drawFlag e).1 = true ∧ (r.engine e x).ArrivedAt next ∧ (r.engine e x).fail = x.fail) ∨
    ((x.env.drawFlag e).1 = false ∧ (r.engine e x).ArrivedAt failLabel ∧
      (r.engine e x).fail = ⟨siteOutcome site, some site, res⟩) ∨
    ((x.env.drawFlag e).1 = false ∧ (r.engine e x).mpc = x.mpc ∧ 1 < x.budget.toNat ∧
      (r.engine e x).budget.toNat = x.budget.toNat - 1 ∧ (r.engine e x).fail = x.fail) := by
  have hengine : r.op.engine e (r.before x) =
      if (x.env.drawFlag e).1 then ((r.before x).polled e poll).goto next
      else ((r.before x).polled e poll).missedPoll (siteOutcome site) site res failLabel := by
    rw [h, MicroOp.engine, Row.before_eq]
  cases hv : (x.env.drawFlag e).1 <;> simp only [hv, if_true, Bool.false_eq_true, if_false] at hengine
  · obtain ⟨_, hmissed⟩ | ⟨hbudget, hmissed, hcount⟩ :=
      missedPoll_cases (siteOutcome site) site res failLabel ((r.before x).polled e poll) <;>
      rw [hmissed] at hengine
    · refine .inr (.inl ⟨rfl, Row.arrivedAt (by rw [hengine]; exact Engine.goto_arrivedAt _ _), ?_⟩)
      simp [Row.engine, Row.after_eq, hengine]
    · simp only [Engine.polled, Row.before_eq] at hbudget hcount
      refine .inr (.inr ⟨rfl, ?_, hbudget, ?_, ?_⟩) <;>
        simp only [Row.engine, Row.after_eq, hengine] <;> simp only [Engine.polled, Row.before_eq]
      exact hcount
  · refine .inl ⟨rfl, Row.arrivedAt (by rw [hengine]; exact Engine.goto_arrivedAt _ _), ?_⟩
    simp only [Row.engine, Row.after_eq, hengine]
    simp [Engine.polled, Row.before_eq]

/-- A wait leaves idx. -/
theorem Row.engine_await_idx {poll : Bool → Event} {site : Site} {res : BitVec 8} {next failLabel : Label}
    (h : r.op = .await poll site res next failLabel) (hc : r.clearIdx = false) : (r.engine e x).idx = x.idx := by
  simp only [Row.engine, Row.after_eq, hc, Bool.false_eq_true, if_false, h, MicroOp.engine]
  split <;> simp [Engine.polled, Row.before_eq]

/-- A payload row counts idx up and takes the loop test (41_i2c R141, R142, 42_spi R193). -/
theorem Row.engine_advance {again done : Label} (hc : r.clearIdx = false)
    (h : (∃ ev, r.op = .store ev again done) ∨ r.op = .send again done) :
    (r.engine e x).ArrivedAt (if morePayload x.latch.n (x.idx + 1#9) then again else done) ∧
      (r.engine e x).idx = x.idx + 1#9 ∧ (r.engine e x).fail = x.fail := by
  obtain ⟨ev, h⟩ | h := h <;> refine ⟨Row.arrivedAt ?_, ?_, ?_⟩
  · rw [h, MicroOp.engine, Engine.advance_eq]
    simpa [Engine.received, Row.before_eq] using Engine.goto_arrivedAt _ _
  · simp [Row.engine, Row.after_eq, Row.before_eq, h, MicroOp.engine, Engine.received, hc]
  · simp [Row.engine, Row.after_eq, Row.before_eq, h, MicroOp.engine, Engine.received]
  · rw [h, MicroOp.engine, Engine.advance_eq]
    simpa [Row.before_eq] using Engine.goto_arrivedAt _ _
  · simp [Row.engine, Row.after_eq, Row.before_eq, h, MicroOp.engine, hc]
  · simp [Row.engine, Row.after_eq, Row.before_eq, h, MicroOp.engine]

/-! ### The loop index (00_scope R14) -/

/-- Within the loop idx + 1 does not wrap, and the loop test compares it with N. -/
theorem idx_succ_toNat {n : BitVec 8} {idx : BitVec 9} (h : idx.toNat < n.toNat) :
    (idx + 1#9).toNat = idx.toNat + 1 := by
  have := n.isLt
  rw [BitVec.toNat_add]
  simp only [BitVec.toNat_ofNat]
  omega

theorem morePayload_iff (n : BitVec 8) (idx : BitVec 9) : morePayload n idx = true ↔ idx.toNat < n.toNat := by
  have := n.isLt
  simp only [morePayload, decide_eq_true_eq, BitVec.lt_def, BitVec.toNat_setWidth]
  omega

/-- The residual of a payload wait is the number of bytes left, so it is not 0 (10_state R34). -/
theorem residualOf_toNat {n : BitVec 8} {idx : BitVec 9} (h : idx.toNat < n.toNat) :
    (residualOf n idx).toNat = n.toNat - idx.toNat := by
  have := n.isLt
  simp only [residualOf, BitVec.toNat_sub, BitVec.toNat_setWidth]
  omega

theorem residualOf_ne_zero {n : BitVec 8} {idx : BitVec 9} (h : idx.toNat < n.toNat) : residualOf n idx ≠ 0 := by
  intro h0
  have hres := residualOf_toNat h
  rw [h0, BitVec.ofNat_eq_ofNat, BitVec.toNat_zero] at hres
  omega

/-! ### The invariant along a row -/

/-- A row that does not end its command leads to the label it goes to. -/
theorem Row.leadsTo_engine (hf : r.Fits x) (h : r.op.finishes = false) : r.LeadsTo x.mpc (r.engine e x).mpc := by
  unfold Row.Fits at hf
  split at hf
  · next hop =>
    rw [(Row.engine_emit hop).1.mpc]
    exact hf.1
  · next hop =>
    rw [(Row.engine_receive hop).1.mpc]
    exact hf.1
  · next hop =>
    obtain ⟨_, _, hcsdrv, hnext, hfail, _⟩ := hf
    obtain ⟨_, hat, _⟩ | ⟨_, hat, _⟩ | ⟨_, hmpc, _⟩ := Row.engine_await (e := e) (x := x) hop
    · rw [hat.mpc]; exact hnext
    · rw [hat.mpc]; exact hfail
    · rw [hmpc]; exact ⟨rfl, by rw [hcsdrv]; rfl⟩
  · next hop =>
    obtain ⟨hc, hagain, hdone, _⟩ := hf
    rw [(Row.engine_advance hc (.inl ⟨_, hop⟩)).1.mpc]
    split <;> assumption
  · next hop =>
    obtain ⟨hc, hagain, hdone, _⟩ := hf
    rw [(Row.engine_advance hc (.inr hop)).1.mpc]
    split <;> assumption
  · next hop => simp [hop, MicroOp.finishes] at h
  · next hop => simp [hop, MicroOp.finishes] at h

/-- Such a row stays within its micro-program (40_sequencer R111), and keeps CSDRV right there (42_spi R172). -/
theorem Row.engine_leadsTo (hf : r.Fits x) (h : r.op.finishes = false) (hcs : x.status.csdrv = selectedAt x.mpc) :
    labelOpcode (r.engine e x).mpc = labelOpcode x.mpc ∧
      (r.engine e x).status.csdrv = selectedAt (r.engine e x).mpc := by
  obtain ⟨hop, hsel⟩ := Row.leadsTo_engine (e := e) hf h
  exact ⟨hop, by rw [Row.engine_csdrv, hsel, hcs]⟩

/-- In the payload loop idx stays below N, which is not 0 (00_scope R14, 30_encoding R93). -/
theorem Row.engine_payload (hf : r.Fits x) (hn : payloadAt (r.engine e x).mpc = true → 0 < x.latch.n.toNat)
    (hx : payloadAt x.mpc = true → x.idx.toNat < x.latch.n.toNat)
    (h : payloadAt (r.engine e x).mpc = true) : (r.engine e x).idx.toNat < x.latch.n.toNat := by
  have hzero : (0#9).toNat < x.latch.n.toNat := hn h
  have hmoved : ∀ {next}, (payloadAt next = true → r.clearIdx = true ∨ payloadAt x.mpc = true) →
      payloadAt next = true → (if r.clearIdx then 0#9 else x.idx).toNat < x.latch.n.toNat := by
    intro next hpay hnext
    split
    · exact hzero
    · next hc => exact hx ((hpay hnext).resolve_left hc)
  have hadvanced : ∀ {again done}, payloadAt x.mpc = true → payloadAt done = false →
      payloadAt (if morePayload x.latch.n (x.idx + 1#9) then again else done) = true →
      (x.idx + 1#9).toNat < x.latch.n.toNat := by
    intro again done _ hdone hnext
    split at hnext
    · next hmore => exact (morePayload_iff _ _).1 hmore
    · simp [hdone] at hnext
  unfold Row.Fits at hf
  split at hf
  · next hop =>
    obtain ⟨hat, hidx, _⟩ := Row.engine_emit (e := e) (x := x) hop
    rw [hat.mpc] at h
    rw [hidx]
    exact hmoved hf.2.1 h
  · next hop =>
    obtain ⟨hat, hidx, _⟩ := Row.engine_receive (e := e) (x := x) hop
    rw [hat.mpc] at h
    rw [hidx]
    exact hmoved hf.2.1 h
  · next hop =>
    obtain ⟨_, hc, _, _, _, hnext, hfail, _⟩ := hf
    rw [Row.engine_await_idx hop hc]
    obtain ⟨_, hat, _⟩ | ⟨_, hat, _⟩ | ⟨_, hmpc, _⟩ := Row.engine_await (e := e) (x := x) hop
    · rw [hat.mpc] at h; exact hx (hnext h)
    · rw [hat.mpc] at h; simp [hfail] at h
    · rw [hmpc] at h; exact hx h
  · next hop =>
    obtain ⟨hc, _, _, hpay, hdone, _⟩ := hf
    obtain ⟨hat, hidx, _⟩ := Row.engine_advance (e := e) hc (.inl ⟨_, hop⟩)
    rw [hat.mpc] at h
    rw [hidx]
    exact hadvanced hpay hdone h
  · next hop =>
    obtain ⟨hc, _, _, hpay, hdone, _⟩ := hf
    obtain ⟨hat, hidx, _⟩ := Row.engine_advance (e := e) hc (.inr hop)
    rw [hat.mpc] at h
    rw [hidx]
    exact hadvanced hpay hdone h
  · next hop =>
    have hmpc := (r.engine_finished e x (by rw [hop]; rfl)).2.2.1
    rw [hmpc] at h
    cases h
  · next hop =>
    have hmpc := (r.engine_finished e x (by rw [hop]; rfl)).2.2.1
    rw [hmpc] at h
    cases h

/-- The budget at a wait lies in 1 .. TIMEOUT_BUDGET(site) (10_state R38). -/
def Engine.BudgetOk (x : Engine) : Prop :=
  ∀ site, awaitSite x.mpc = some site →
    1 ≤ x.budget.toNat ∧ x.budget.toNat ≤ (Config.timeoutBudget site).toNat

theorem Engine.ArrivedAt.budgetOk {y : Engine} {l : Label} (h : y.ArrivedAt l) : y.BudgetOk := by
  intro site hs
  rw [h.mpc] at hs
  rw [h.budget site hs]
  exact ⟨timeoutBudget_pos site, le_rfl⟩

theorem Row.engine_budget (hf : r.Fits x) (hx : x.BudgetOk) : (r.engine e x).BudgetOk := by
  have hfinished : r.op.finishes = true → (r.engine e x).BudgetOk := by
    intro hfin site hs
    rw [(r.engine_finished e x hfin).2.2.1] at hs
    cases hs
  unfold Row.Fits at hf
  split at hf
  · next hop => exact (Row.engine_emit hop).1.budgetOk
  · next hop => exact (Row.engine_receive hop).1.budgetOk
  · next hop =>
    obtain ⟨_, hat, _⟩ | ⟨_, hat, _⟩ | ⟨_, hmpc, hlt, hcount, _⟩ := Row.engine_await (e := e) (x := x) hop
    · exact hat.budgetOk
    · exact hat.budgetOk
    · intro site hs
      rw [hmpc] at hs
      have := hx site hs
      omega
  · next hop => exact (Row.engine_advance hf.1 (.inl ⟨_, hop⟩)).1.budgetOk
  · next hop => exact (Row.engine_advance hf.1 (.inr hop)).1.budgetOk
  · next hop => exact hfinished (by rw [hop]; rfl)
  · next hop => exact hfinished (by rw [hop]; rfl)

/-- What a failing wait records is as the table of 60_exceptions R222 has it. -/
theorem failRecordOk_await {site : Site} {res : BitVec 8}
    (hres : if residualSite site then payloadAt x.mpc = true ∧ res = residualOf x.latch.n x.idx else res = 0)
    (hx : payloadAt x.mpc = true → x.idx.toNat < x.latch.n.toNat) :
    failRecordOk ⟨siteOutcome site, some site, res⟩ = true := by
  split at hres
  · next hs =>
    obtain ⟨hpay, rfl⟩ := hres
    simpa [failRecordOk, hs] using residualOf_ne_zero (hx hpay)
  · next hs =>
    subst hres
    simpa [failRecordOk] using hs

/-- On a failure path the failure record is one of the table (60_exceptions R238). -/
theorem Row.engine_failure (hf : r.Fits x) (hpay : payloadAt x.mpc = true → x.idx.toNat < x.latch.n.toNat)
    (hx : failingAt x.mpc = true → failRecordOk x.fail = true)
    (h : failingAt (r.engine e x).mpc = true) : failRecordOk (r.engine e x).fail = true := by
  have hadvanced : ∀ {again done}, failingAt again = false → failingAt done = false →
      ¬ failingAt (if morePayload x.latch.n (x.idx + 1#9) then again else done) = true := by
    intro again done hagain hdone
    split <;> simp [hagain, hdone]
  have hfinished : ¬ r.op.finishes = true := by
    intro hfin
    rw [(r.engine_finished e x hfin).2.2.1] at h
    cases h
  unfold Row.Fits at hf
  split at hf
  · next hop =>
    obtain ⟨hat, _, hfail⟩ := Row.engine_emit (e := e) (x := x) hop
    rw [hat.mpc] at h
    rw [hfail]
    exact hx (hf.2.2 h)
  · next hop =>
    obtain ⟨hat, _, hfail⟩ := Row.engine_receive (e := e) (x := x) hop
    rw [hat.mpc] at h
    rw [hfail]
    exact hx (hf.2.2 h)
  · next hop =>
    obtain ⟨_, _, _, _, _, _, _, hhere, hnext, hres⟩ := hf
    obtain ⟨_, hat, _⟩ | ⟨_, _, hfail⟩ | ⟨_, hmpc, _⟩ := Row.engine_await (e := e) (x := x) hop
    · rw [hat.mpc, hnext] at h; cases h
    · rw [hfail]; exact failRecordOk_await hres hpay
    · rw [hmpc, hhere] at h; cases h
  · next hop =>
    obtain ⟨hc, _, _, _, _, hagain, hdone⟩ := hf
    rw [(Row.engine_advance hc (.inl ⟨_, hop⟩)).1.mpc] at h
    exact absurd h (hadvanced hagain hdone)
  · next hop =>
    obtain ⟨hc, _, _, _, _, hagain, hdone⟩ := hf
    rw [(Row.engine_advance hc (.inr hop)).1.mpc] at h
    exact absurd h (hadvanced hagain hdone)
  · next hop => exact absurd (by rw [hop]; rfl) hfinished
  · next hop => exact absurd (by rw [hop]; rfl) hfinished

/-- RESULT after a FINISH row. -/
theorem Row.engine_finish_result {res : Result} {init : Bool} (h : r.op = .finish res init) :
    (r.engine e x).result = res := by
  simp [Row.engine, Row.after_eq, h, MicroOp.engine]

/-- RESULT after the FINISH(F) row of an exchange: RDATA is a draw (40_sequencer R116). -/
theorem Row.engine_finishDrawn_result (h : r.op = .finishDrawn) :
    (r.engine e x).result = ⟨x.fail.oc, x.fail.site, x.fail.res, (x.env.drawValue e).1.setWidth 16⟩ := by
  simp [Row.engine, Row.after_eq, Row.before_eq, h, MicroOp.engine]

/-- A failure record of the table makes a RESULT of the table. -/
theorem resultOk_of_failRecordOk {f : FailRecord} (h : failRecordOk f = true) (rdata : BitVec 16) :
    resultOk ⟨f.oc, f.site, f.res, rdata⟩ = true := by
  unfold failRecordOk at h
  unfold resultOk
  cases hs : f.site <;> simp only [hs] at h ⊢
  · cases h
  · exact h

/-- RESULT stays one of the table (60_exceptions R220, R222). -/
theorem Row.engine_result (hf : r.Fits x) (hfail : failingAt x.mpc = true → failRecordOk x.fail = true)
    (hx : resultOk x.result = true) : resultOk (r.engine e x).result = true := by
  cases hfin : r.op.finishes
  · rw [(r.engine_unfinished e x hfin).1]
    exact hx
  · unfold Row.Fits at hf
    split at hf
    case h_6 res init hop =>
      rw [Row.engine_finish_result hop]
      obtain ⟨_, _, _, ⟨hoc, hsite, hres⟩ | ⟨rfl, hhere⟩⟩ := hf
      · simp [resultOk, hsite, hoc, hres]
      · exact resultOk_of_failRecordOk (hfail hhere) _
    case h_7 hop =>
      rw [Row.engine_finishDrawn_result hop]
      exact resultOk_of_failRecordOk (hfail hf.2.2.2) _
    all_goals next hop => simp [hop, MicroOp.finishes] at hfin

/-- The count of a running command with a payload is not 0 (30_encoding R93). -/
theorem count_pos_of_running {i : Instr} (hrun : runningCommand e x.latch = some i) (hwf : i.wellFormed = true)
    {l : Label} (hl : labelOpcode l = some i.opcode) (hpay : payloadAt l = true) : 0 < x.latch.n.toNat := by
  have hcount : x.latch.n ≠ 0 := by
    cases e <;> simp only [runningCommand] at hrun <;> split_ifs at hrun <;>
      obtain rfl := Option.some.inj hrun <;>
      first
        | (intro h0; simp [Instr.wellFormed, rangeError, h0] at hwf; done)
        | (exfalso; revert hl hpay; cases l <;> simp [labelOpcode, payloadAt, Instr.opcode])
  refine Nat.pos_of_ne_zero fun h0 => hcount (BitVec.eq_of_toNat_eq ?_)
  simpa using h0

/-- A row of the running command keeps the invariant of its engine. -/
theorem EngineInv.ran (hx : EngineInv e x) (hbusy : x.status.busy = true) (hrow : x.row = some r) :
    EngineInv e (r.engine e x) := by
  have hf := Engine.row_fits hrow
  obtain ⟨i, hrun, hwf, hcmd, hlabel⟩ := hx.running hbusy
  have hsame := r.engine_sameCommand e x
  have hleads : r.op.finishes = false → labelOpcode (r.engine e x).mpc = some i.opcode := by
    intro hfin
    rw [(Row.engine_leadsTo hf hfin hx.csdrv).1, hlabel]
  have hlabel' : (r.engine e x).mpc ≠ .idle → labelOpcode (r.engine e x).mpc = some i.opcode := by
    intro hidle
    cases hfin : r.op.finishes
    · exact hleads hfin
    · exact absurd (r.engine_finished e x hfin).2.2.1 hidle
  refine
    { idle := ?_, running := ?_, csdrv := ?_, payload := ?_, budget := Row.engine_budget hf hx.budget
      failure := Row.engine_failure hf hx.payload hx.failure, result := Row.engine_result hf hx.failure hx.result }
  · intro hb
    cases hfin : r.op.finishes
    · rw [(r.engine_unfinished e x hfin).2.1, hbusy] at hb
      cases hb
    · exact (r.engine_finished e x hfin).2.2.1
  · intro hb
    cases hfin : r.op.finishes
    · exact ⟨i, by rw [hsame.latch]; exact hrun, hwf, by rw [hsame.cmd]; exact hcmd, hleads hfin⟩
    · rw [(r.engine_finished e x hfin).1] at hb
      cases hb
  · cases hfin : r.op.finishes
    · exact (Row.engine_leadsTo hf hfin hx.csdrv).2
    · have hnone : r.csdrv = none ∧ selectedAt x.mpc = false := by
        unfold Row.Fits at hf
        split at hf
        case h_6 => exact ⟨hf.1, hf.2.1⟩
        case h_7 => exact ⟨hf.1, hf.2.1⟩
        all_goals next hop => simp [hop, MicroOp.finishes] at hfin
      rw [Row.engine_csdrv, (r.engine_finished e x hfin).2.2.1, hnone.1, hx.csdrv, hnone.2]
      rfl
  · intro hpay
    rw [hsame.latch]
    refine Row.engine_payload hf (fun hpay' => ?_) hx.payload hpay
    exact count_pos_of_running hrun hwf (hlabel' (by rintro h; simp [h, payloadAt] at hpay')) hpay'

end

end Sys2Proof.Machine
end

section
/-! What a step of the machine can do to an engine: `EngineMove`. Every whole-machine statement about one engine is a
case split on it. -/

namespace Sys2Proof.Machine

/-! ### Acceptance (40_sequencer R110) -/

section
variable (x : Engine) (i : Instr) (l : Label)

@[simp] theorem Engine.accept_cmd : (x.accept i l).cmd = encode i := by simp [Engine.accept]
@[simp] theorem Engine.accept_latch : (x.accept i l).latch = latchOperands i x.latch := by simp [Engine.accept]
@[simp] theorem Engine.accept_status : (x.accept i l).status = { x.status with rej := false, busy := true } := by
  simp [Engine.accept]
@[simp] theorem Engine.accept_result : (x.accept i l).result = x.result := by simp [Engine.accept]
@[simp] theorem Engine.accept_buf : (x.accept i l).buf = x.buf := by simp [Engine.accept]
@[simp] theorem Engine.accept_bufEpoch : (x.accept i l).bufEpoch = x.bufEpoch := by simp [Engine.accept]
@[simp] theorem Engine.accept_mpc : (x.accept i l).mpc = l := by simp [Engine.accept]
@[simp] theorem Engine.accept_idx : (x.accept i l).idx = x.idx := by simp [Engine.accept]
@[simp] theorem Engine.accept_fail : (x.accept i l).fail = x.fail := by simp [Engine.accept]
@[simp] theorem Engine.accept_tmp : (x.accept i l).tmp = x.tmp := by simp [Engine.accept]
@[simp] theorem Engine.accept_faults : (x.accept i l).faults =
    if i.isTransaction && !x.status.init then x.faults.record .notInitialized else x.faults := by
  simp [Engine.accept]
@[simp] theorem Engine.accept_trace : (x.accept i l).trace = x.trace := by simp [Engine.accept]
@[simp] theorem Engine.accept_env : (x.accept i l).env = x.env := by simp [Engine.accept]
@[simp] theorem Engine.accept_contested : (x.accept i l).contested = [] := by simp [Engine.accept]

/-- Acceptance arrives at the first label. -/
theorem Engine.accept_arrivedAt : (x.accept i l).ArrivedAt l := Engine.goto_arrivedAt _ l

/-- Acceptance removes no recorded fault, and records no CmdWhileBusy. -/
theorem Engine.accept_faults_has (k : HostFaultKind) :
    (x.accept i l).faults.has k =
      (x.faults.has k || (decide (k = .notInitialized) && i.isTransaction && !x.status.init)) := by
  rw [Engine.accept_faults]
  split
  · next h => cases k <;> simp_all [record_has]
  · next h => cases k <;> simp_all

end

/-- The latches of an accepted command hold it (30_encoding R93). -/
theorem runningCommand_latchOperands (i : Instr) (l : Latches) :
    runningCommand i.engine (latchOperands i l) = some i := by
  cases i <;> simp [Instr.engine, latchOperands, runningCommand]

/-- The first label belongs to the micro-program; CSDRV is 0 there, and it is no payload or failure label. -/
theorem firstRow_label (i : Instr) :
    labelOpcode (firstRow i).1 = some i.opcode ∧ selectedAt (firstRow i).1 = false ∧
      payloadAt (firstRow i).1 = false ∧ failingAt (firstRow i).1 = false := by
  cases i <;> exact ⟨rfl, rfl, rfl, rfl⟩

/-- Acceptance gives the invariant to a running engine. -/
theorem EngineInv.accepted {x : Engine} {i : Instr} (hx : EngineInv i.engine x) (hidle : x.mpc = .idle)
    (hwf : i.wellFormed = true) : EngineInv i.engine (x.accept i (firstRow i).1) := by
  obtain ⟨hlabel, hsel, hpay, hfail⟩ := firstRow_label i
  have hcs : x.status.csdrv = false := by rw [hx.csdrv, hidle]; rfl
  refine
    { idle := ?_, running := fun _ => ⟨i, ?_, hwf, by simp, by simpa using hlabel⟩, csdrv := by simp [hcs, hsel]
      payload := by simp [hpay], budget := (x.accept_arrivedAt i _).budgetOk, failure := by simp [hfail]
      result := by simpa using hx.result }
  · intro h
    simp at h
  · simpa using runningCommand_latchOperands i x.latch

/-! ### Changes the host makes beside a command -/

/-- What a host access may leave of an engine without running its command: REJ, BUF, the environment, the contested bytes,
and the fault set, from which nothing is removed. -/
structure Engine.Touched (x y : Engine) : Prop where
  cmd : y.cmd = x.cmd
  busy : y.status.busy = x.status.busy
  valid : y.status.valid = x.status.valid
  init : y.status.init = x.status.init
  csdrv : y.status.csdrv = x.status.csdrv
  result : y.result = x.result
  mpc : y.mpc = x.mpc
  budget : y.budget = x.budget
  idx : y.idx = x.idx
  latch : y.latch = x.latch
  fail : y.fail = x.fail
  trace : y.trace = x.trace
  sticky : ∀ k, x.faults.has k = true → y.faults.has k = true
  cmdWhileBusy : y.faults.cmdWhileBusy = x.faults.cmdWhileBusy
  bufWf : x.buf.wf = true → y.buf.wf = true

theorem Engine.Touched.refl (x : Engine) : x.Touched x := by
  constructor <;> first | rfl | exact fun _ h => h | exact fun h => h

theorem Engine.Touched.trans {x y z : Engine} (h : x.Touched y) (h' : y.Touched z) : x.Touched z where
  cmd := h'.cmd.trans h.cmd
  busy := h'.busy.trans h.busy
  valid := h'.valid.trans h.valid
  init := h'.init.trans h.init
  csdrv := h'.csdrv.trans h.csdrv
  result := h'.result.trans h.result
  mpc := h'.mpc.trans h.mpc
  budget := h'.budget.trans h.budget
  idx := h'.idx.trans h.idx
  latch := h'.latch.trans h.latch
  fail := h'.fail.trans h.fail
  trace := h'.trace.trans h.trace
  sticky := fun k hk => h'.sticky k (h.sticky k hk)
  cmdWhileBusy := h'.cmdWhileBusy.trans h.cmdWhileBusy
  bufWf := fun hx => h'.bufWf (h.bufWf hx)

/-- The invariant of an engine does not read what a host access may touch. -/
theorem EngineInv.touched {e : EngineId} {x y : Engine} (hx : EngineInv e x) (h : x.Touched y) : EngineInv e y where
  idle := by rw [h.busy, h.mpc]; exact hx.idle
  running := by rw [h.busy, h.mpc, h.latch, h.cmd]; exact hx.running
  csdrv := by rw [h.csdrv, h.mpc]; exact hx.csdrv
  payload := by rw [h.mpc, h.idx, h.latch]; exact hx.payload
  budget := by rw [h.mpc, h.budget]; exact hx.budget
  failure := by rw [h.mpc, h.fail]; exact hx.failure
  result := by rw [h.result]; exact hx.result

/-- Recording a fault other than CmdWhileBusy touches the engine. -/
theorem Engine.touched_raise {k : HostFaultKind} (hk : k ≠ .cmdWhileBusy) (x : Engine) : x.Touched (x.raise k) := by
  constructor <;> try rfl
  · intro k' hk'
    simp [record_has, hk']
  · cases k <;> first | rfl | exact absurd rfl hk
  · exact fun h => h

theorem Engine.touched_env (x : Engine) (env : Environment) : x.Touched { x with env := env } := by
  constructor <;> first | rfl | exact fun _ h => h | exact fun h => h

theorem Engine.touched_contested (x : Engine) (cells : List Host.Cell) : x.Touched { x with contested := cells } := by
  constructor <;> first | rfl | exact fun _ h => h | exact fun h => h

theorem Engine.touched_rej (x : Engine) (b : Bool) : x.Touched { x with status := { x.status with rej := b } } := by
  constructor <;> first | rfl | exact fun _ h => h | exact fun h => h

/-- A host store changes BUF alone. -/
theorem storeBytes_eq (k : Nat) (v : BitVec 32) (count : Nat) (x : Engine) :
    storeBytes k v count x = { x with buf := (storeBytes k v count x).buf } := by
  induction count with
  | zero => rfl
  | succ n ih =>
    rw [storeBytes, ih]
    rfl

theorem Engine.touched_storeBytes {k count : Nat} (v : BitVec 32) (x : Engine) (h : k + count ≤ Config.bufSize) :
    x.Touched (storeBytes k v count x) := by
  rw [storeBytes_eq]
  constructor <;> try rfl
  · exact fun _ h => h
  · exact fun hx => storeBytes_wf k v count x hx h

/-! ### What a step can do to an engine -/

/-- The CS level after an event, if one is emitted (10_state R56). -/
def CsLevel.after (c : CsLevel) : Option Event → CsLevel
  | some .csHigh => .high
  | some .csLow => .low
  | _ => c

theorem State.observed_cs (s : State) (o : Option Event) : (s.observed o).cs = s.cs.after o := by
  cases o with
  | none => rfl
  | some ev => cases ev <;> rfl

/-- Only the CS events change the CS level. -/
theorem CsLevel.after_owner_i2ce (c : CsLevel) {o : Option Event} (h : ∀ ev, o = some ev → ev.owner = .i2ce) :
    c.after o = c := by
  cases o with
  | none => rfl
  | some ev => cases ev <;> first | rfl | exact absurd (h _ rfl) (by simp [Event.owner])

/-- What one step of the machine, the turn of agent `a`, can do to engine `e`, `x` before it and `y` after it, with `op` the
host's next access and the CS level `c` before and `c'` after; the CS level counts for SPIE alone. -/
inductive EngineMove (a : Agent) (e : EngineId) (op : Option HostOp) (x y : Engine) (c c' : CsLevel) : Prop where
  /-- A host access beside any command, or nothing. A drive of the CS line inside a burst is a contention (R233). -/
  | touched (move : x.Touched y)
    (cs : e = .spie →
      c' = c ∨ x.status.csdrv = false ∨ (y.faults.csContention = true ∧ c' = .unknown))
  /-- The engine has a CmdWhileBusy recorded, now or before, and is unspecified (60_exceptions R230). -/
  | lost (fault : y.faults.cmdWhileBusy = true) (sticky : ∀ k, x.faults.has k = true → y.faults.has k = true)
    (buf : y.buf = [])
  /-- The host reset the block (70_reset R250). -/
  | reset (host : op = some .reset) (move : y = x.resetNow)
  /-- The host wrote a command to the idle engine (40_sequencer R110). -/
  | issued (w : Word) (i : Instr) (o : Option Event) (host : op = some (.write e 0x000 .four w))
    (busy : x.status.busy = false) (decoded : decode e w = .ok i) (move : ExecMove i x o y)
    (cs : e = .spie → c' = c.after o)
  /-- The engine's sequencer took a step of its command (40_sequencer R111). -/
  | ran (i : Instr) (o : Option Event) (turn : a = .sequencer e) (busy : x.status.busy = true)
    (running : runningCommand e x.latch = some i) (move : ExecMove i x o y) (cs : e = .spie → c' = c.after o)

/-- Nothing happened to the engine. -/
theorem EngineMove.refl (a : Agent) (e : EngineId) (op : Option HostOp) (x : Engine) (c c' : CsLevel)
    (h : e = .spie → c' = c) :
    EngineMove a e op x x c c' := .touched (.refl x) fun he => .inl (h he)

/-- From `s` to `t` no other engine than `e` changed, and the CS line only if `e` is SPIE (60_exceptions R240). -/
structure ActsOn (e : EngineId) (s t : State) : Prop where
  others : ∀ e', e' ≠ e → t.engine e' = s.engine e'
  cs : e ≠ .spie → t.cs = s.cs

theorem ActsOn.refl (e : EngineId) (s : State) : ActsOn e s s := ⟨fun _ _ => rfl, fun _ => rfl⟩

theorem ActsOn.trans {e : EngineId} {s t u : State} (h : ActsOn e s t) (h' : ActsOn e t u) : ActsOn e s u :=
  ⟨fun e' he => (h'.others e' he).trans (h.others e' he), fun he => (h'.cs he).trans (h.cs he)⟩

theorem State.setEngine_cs (s : State) (e : EngineId) (x : Engine) : (s.setEngine e x).cs = s.cs := by
  cases e <;> rfl

theorem State.actsOn_setEngine (s : State) (e : EngineId) (x : Engine) : ActsOn e s (s.setEngine e x) :=
  ⟨fun _ he => s.engine_setEngine_ne he x, fun _ => s.setEngine_cs e x⟩

theorem State.actsOn_onEngine (s : State) (e : EngineId) (f : Engine → Engine) : ActsOn e s (s.onEngine e f) :=
  s.actsOn_setEngine e _

theorem State.engine_returned (s : State) (e : EngineId) (v : BitVec 32) : (s.returned v).engine e = s.engine e := by
  cases e <;> rfl

theorem State.actsOn_returned (s : State) (e : EngineId) (v : BitVec 32) : ActsOn e s (s.returned v) :=
  ⟨fun e' _ => s.engine_returned e' v, fun _ => rfl⟩

theorem State.actsOn_unspecify (s : State) (e : EngineId) : ActsOn e s (s.unspecify e) := by
  obtain ⟨_, _, hothers, _⟩ := unspecify_frame e s
  exact ⟨hothers, by cases e <;> simp [State.unspecify]⟩

theorem actsOn_returnDraw (e : EngineId) (size : AccessSize) (s : State) : ActsOn e s (returnDraw e size s) :=
  (s.actsOn_onEngine e _).trans (State.actsOn_returned _ e _)

/-- A read of an unspecified value takes a draw of its engine. -/
theorem engine_returnDraw (e : EngineId) (size : AccessSize) (s : State) :
    ((returnDraw e size s).engine e) = { s.engine e with env := ((s.engine e).env.drawValue e).2 } := by
  rw [returnDraw, State.engine_returned, State.engine_onEngine]

theorem returnDraw_cs (e : EngineId) (size : AccessSize) (s : State) : (returnDraw e size s).cs = s.cs := by
  cases e <;> rfl

/-- An engine with a CmdWhileBusy recorded is lost in whatever host access or turn comes next. -/
theorem EngineMove.lost_of_unspecify {a : Agent} {e : EngineId} {op : Option HostOp} {s t : State} {c c' : CsLevel}
    (hf : (s.engine e).faults.cmdWhileBusy = true) (hfaults : (t.engine e).faults = ((s.unspecify e).engine e).faults)
    (hbuf : (t.engine e).buf = ((s.unspecify e).engine e).buf) :
    EngineMove a e op (s.engine e) (t.engine e) c c' := by
  obtain ⟨hfaults', hbuf', _⟩ := unspecify_frame e s
  exact .lost (by rw [hfaults, hfaults', hf]) (by rw [hfaults, hfaults']; exact fun _ h => h) (by rw [hbuf, hbuf'])

/-- An access that acts on engine `e` moves every engine if it moves `e`. -/
theorem ActsOn.move {a : Agent} {e : EngineId} {op : Option HostOp} {s t : State} (h : ActsOn e s t)
    (hmove : EngineMove a e op (s.engine e) (t.engine e) s.cs t.cs) (e' : EngineId) :
    EngineMove a e' op (s.engine e') (t.engine e') s.cs t.cs := by
  obtain rfl | he := eq_or_ne e' e
  · exact hmove
  · rw [h.others e' he]
    exact .refl _ _ _ _ _ _ fun hspi => h.cs (by rintro rfl; exact he hspi)

/-- A host read (20_memory R70-R72). -/
theorem memRead_actsOn (e : EngineId) (off : BitVec 9) (size : AccessSize) (s : State) :
    ActsOn e s (memRead e off size s) := by
  unfold memRead
  dsimp only
  split
  · exact (s.actsOn_unspecify e).trans (actsOn_returnDraw _ _ _)
  · split
    · exact (s.actsOn_onEngine e _).trans (actsOn_returnDraw _ _ _)
    · exact s.actsOn_returned e _
    · exact s.actsOn_returned e _
    · exact s.actsOn_returned e _
    · exact s.actsOn_returned e _
    · split
      · exact (s.actsOn_onEngine e _).trans (actsOn_returnDraw _ _ _)
      · exact s.actsOn_returned e _

/-- A host read within the spec touches its engine. -/
theorem memRead_touched {e : EngineId} {s : State} (off : BitVec 9) (size : AccessSize)
    (h : (s.engine e).faults.cmdWhileBusy = false) :
    (s.engine e).Touched ((memRead e off size s).engine e) ∧ (memRead e off size s).cs = s.cs := by
  have hdraw : ∀ k, k ≠ HostFaultKind.cmdWhileBusy →
      (s.engine e).Touched ((returnDraw e size (s.onEngine e (Engine.raise k))).engine e) ∧
        (returnDraw e size (s.onEngine e (Engine.raise k))).cs = s.cs := by
    intro k hk
    rw [engine_returnDraw, State.engine_onEngine, returnDraw_cs]
    exact ⟨((s.engine e).touched_raise hk).trans (Engine.touched_env _ _), s.setEngine_cs e _⟩
  have hreturned : ∀ v, (s.engine e).Touched ((s.returned v).engine e) ∧ (s.returned v).cs = s.cs := by
    intro v
    rw [State.engine_returned]
    exact ⟨.refl _, rfl⟩
  unfold memRead
  simp only [h, Bool.false_eq_true, if_false]
  split
  · exact hdraw _ (by simp)
  · exact hreturned _
  · exact hreturned _
  · exact hreturned _
  · exact hreturned _
  · split
    · exact hdraw _ (by simp)
    · exact hreturned _

theorem memRead_move (e : EngineId) (off : BitVec 9) (size : AccessSize) (s : State) (op : Option HostOp) :
    EngineMove .host e op (s.engine e) ((memRead e off size s).engine e) s.cs (memRead e off size s).cs := by
  cases hf : (s.engine e).faults.cmdWhileBusy
  · obtain ⟨htouched, hcs⟩ := memRead_touched off size hf
    exact .touched htouched fun _ => .inl hcs
  · refine .lost_of_unspecify hf ?_ ?_ <;> simp [memRead, hf, engine_returnDraw]

/-- A host write to BUF while BUSY = 1 changes its engine alone. -/
theorem writeBufBusy_eq (e : EngineId) (k count : Nat) (v : BitVec 32) (s : State) :
    ∃ f, writeBufBusy e k count v s = s.onEngine e f := by
  unfold writeBufBusy
  exact ⟨_, rfl⟩

/-- A host write to BUF while BUSY = 1 touches its engine (60_exceptions R232). -/
theorem writeBufBusy_touched (e : EngineId) {k count : Nat} (v : BitVec 32) (s : State)
    (h : k + count ≤ Config.bufSize) :
    (s.engine e).Touched ((writeBufBusy e k count v s).engine e) := by
  have hraised : (s.engine e).Touched
      { (s.engine e).raise .bufWhileBusy with env := ((s.engine e).env.drawFlag e).2 } :=
    ((s.engine e).touched_raise (by simp)).trans (Engine.touched_env _ _)
  rw [writeBufBusy, State.engine_onEngine]
  split
  · exact (hraised.trans (Engine.touched_storeBytes v _ h)).trans (Engine.touched_contested _ _)
  · exact hraised.trans (Engine.touched_contested _ _)

/-- The one access that reaches CMD (20_memory R70, R71). -/
theorem regionOf_eq_cmd {off : BitVec 9} {size : AccessSize} (h : regionOf off size = .cmd) :
    off = 0x000 ∧ size = .four := by
  unfold regionOf at h
  dsimp only at h
  split_ifs at h with h1 h2 h3
  exact ⟨BitVec.eq_of_toNat_eq (by simpa using h3), h2.1⟩

/-- The accesses that reach BUF are aligned (20_memory R71). -/
theorem regionOf_eq_buf {off : BitVec 9} {size : AccessSize} (h : regionOf off size = .buf) :
    off.toNat % size.bytes = 0 := by
  unfold regionOf at h
  dsimp only at h
  split_ifs at h with h1 h2 h3
  assumption

/-- exec moves the engine of its command and acts on nothing else. -/
theorem exec_actsOn {i : Instr} {s t : State} (h : exec i s = .next t) : ActsOn i.engine s t := by
  obtain ⟨o, y, hmove, rfl⟩ := exec_next_iff.1 h
  refine ⟨fun e' he => ?_, fun he => ?_⟩
  · rw [State.engine_setEngine_ne _ he, State.engine_observed]
  · rw [State.setEngine_cs, State.observed_cs]
    refine CsLevel.after_owner_i2ce _ fun ev hev => ?_
    subst hev
    rw [hmove.event_owner]
    cases hi : i.engine
    · rfl
    · exact absurd hi he

/-- A command write that records CmdWhileBusy loses its engine (60_exceptions R230). -/
theorem commandWhileBusy_actsOn (e : EngineId) (s : State) : ActsOn e s (commandWhileBusy e s) :=
  ((s.actsOn_onEngine e _).trans (State.actsOn_unspecify _ e)).trans (State.actsOn_onEngine _ e _)

theorem commandWhileBusy_move (e : EngineId) (s : State) (op : Option HostOp) (c c' : CsLevel) :
    EngineMove .host e op (s.engine e) ((commandWhileBusy e s).engine e) c c' := by
  obtain ⟨hfaults, hbuf, _⟩ := unspecify_frame e (s.onEngine e (Engine.raise .cmdWhileBusy))
  have hrecorded : ((commandWhileBusy e s).engine e).faults = (s.engine e).faults.record .cmdWhileBusy := by
    rw [commandWhileBusy, State.engine_onEngine, hfaults, State.engine_onEngine, Engine.raise_faults]
  refine .lost (by rw [hrecorded]; rfl) (fun k hk => ?_) ?_
  · rw [hrecorded, record_has, hk, Bool.or_true]
  · rw [commandWhileBusy, State.engine_onEngine, hbuf]

/-- A host write to CMD (40_sequencer R110). -/
theorem writeCmd_move {e : EngineId} {w : Word} {s t : State} (h : writeCmd e w s = .next t) :
    ActsOn e s t ∧ EngineMove .host e (some (.write e 0x000 .four w)) (s.engine e) (t.engine e) s.cs t.cs := by
  obtain ⟨_, hw⟩ | ⟨_, _, _, hw⟩ | ⟨hbusy, i, hdec, hw⟩ := writeCmd_cases e w s
  · obtain rfl : commandWhileBusy e s = t := by simpa [hw] using h
    exact ⟨commandWhileBusy_actsOn e s, commandWhileBusy_move e s _ _ _⟩
  · obtain rfl : rejectCommand e s = t := by simpa [hw] using h
    refine ⟨s.actsOn_onEngine e _, .touched ?_ fun _ => .inl (s.setEngine_cs e _)⟩
    rw [rejectCommand, State.engine_onEngine]
    exact Engine.touched_rej _ _
  · rw [hw] at h
    obtain ⟨_, rfl, _⟩ := decode_ok hdec
    refine ⟨exec_actsOn h, ?_⟩
    obtain ⟨o, y, hmove, rfl⟩ := exec_next_iff.1 h
    rw [State.engine_setEngine, State.setEngine_cs, State.observed_cs]
    exact .issued w i o rfl hbusy hdec hmove fun _ => rfl

/-- A host write (20_memory R70-R72). -/
theorem memWrite_move {e : EngineId} {off : BitVec 9} {size : AccessSize} {v : BitVec 32} {s t : State}
    (h : memWrite e off size v s = .next t) :
    ActsOn e s t ∧ EngineMove .host e (some (.write e off size v)) (s.engine e) (t.engine e) s.cs t.cs := by
  have htouched : ∀ f : Engine → Engine, (s.engine e).Touched (f (s.engine e)) → s.onEngine e f = t →
      ActsOn e s t ∧ EngineMove .host e (some (.write e off size v)) (s.engine e) (t.engine e) s.cs t.cs := by
    rintro f hf rfl
    refine ⟨s.actsOn_onEngine e f, .touched ?_ fun _ => .inl (s.setEngine_cs e _)⟩
    rw [State.engine_onEngine]
    exact hf
  have hnothing : s = t →
      ActsOn e s t ∧ EngineMove .host e (some (.write e off size v)) (s.engine e) (t.engine e) s.cs t.cs := by
    rintro rfl
    exact ⟨.refl e s, .refl _ _ _ _ _ _ fun _ => rfl⟩
  unfold memWrite at h
  dsimp only at h
  split at h
  · next hf =>
    obtain rfl : s.unspecify e = t := by simpa using h
    exact ⟨s.actsOn_unspecify e, .lost_of_unspecify hf rfl rfl⟩
  · split at h
    · exact htouched _ (Engine.touched_raise (k := .badAccess) (by simp) _) (by simpa using h)
    · next hregion =>
      obtain ⟨rfl, rfl⟩ := regionOf_eq_cmd hregion
      exact writeCmd_move h
    · exact hnothing (by simpa using h)
    · exact hnothing (by simpa using h)
    · exact hnothing (by simpa using h)
    · next hregion =>
      have hends := buf_access_ends (regionOf_eq_buf hregion)
      split at h
      · obtain rfl : writeBufBusy e _ _ v s = t := by simpa using h
        have htouch := writeBufBusy_touched e v s hends
        obtain ⟨f, hf⟩ := writeBufBusy_eq e (off.toNat - 0x100) size.bytes v s
        rw [hf] at htouch ⊢
        exact ⟨s.actsOn_onEngine e f, .touched htouch fun _ => .inl (s.setEngine_cs e _)⟩
      · exact htouched _ (Engine.touched_storeBytes v _ hends) (by simpa using h)

/-- The host's drive of the CS line acts on SPIE (42_spi R174, 60_exceptions R233). -/
theorem driveCs_move (high : Bool) (s : State) (op : Option HostOp) :
    ActsOn .spie s (driveCs high s) ∧ EngineMove .host .spie op s.spi (driveCs high s).spi s.cs (driveCs high s).cs := by
  unfold driveCs
  split
  · next hf => exact ⟨s.actsOn_unspecify .spie, .lost_of_unspecify (s := s) hf rfl rfl⟩
  · split
    · refine ⟨⟨?_, by simp⟩, .touched (Engine.touched_raise (k := .csContention) (by simp) s.spi) fun _ =>
        .inr (.inr ⟨rfl, rfl⟩)⟩
      rintro (_ | _) he
      · rfl
      · exact absurd rfl he
    · next hcs =>
      refine ⟨⟨?_, by simp⟩, .touched (.refl s.spi) fun _ => .inr (.inl (by simpa using hcs))⟩
      rintro (_ | _) _ <;> rfl

/-- One read of WAIT is a read of STATUS (30_encoding R99). -/
theorem waitOnce_engine (e e' : EngineId) (s : State) :
    (waitOnce e s).engine e' = (memRead e 0x004#9 .four s).engine e' ∧
      (waitOnce e s).cs = (memRead e 0x004#9 .four s).cs := by
  unfold waitOnce
  dsimp only
  split
  · cases e' <;> exact ⟨rfl, rfl⟩
  · exact ⟨rfl, rfl⟩

/-- One action of the host moves every engine. -/
theorem hostAction_move {op : HostOp} {s t : State} (h : hostAction op s = .next t) (e : EngineId) :
    EngineMove .host e (some op) (s.engine e) (t.engine e) s.cs t.cs := by
  cases op with
  | read e' off size =>
    obtain rfl : memRead e' off size s = t := by simpa [hostAction] using h
    exact (memRead_actsOn e' off size s).move (memRead_move e' off size s _) e
  | write e' off size v =>
    obtain ⟨hacts, hmove⟩ := memWrite_move (t := t) (by simpa [hostAction] using h)
    exact hacts.move hmove e
  | wait e' =>
    obtain rfl : waitOnce e' s = t := by simpa [hostAction] using h
    rw [(waitOnce_engine e' e s).1, (waitOnce_engine e' e s).2]
    exact (memRead_actsOn e' _ _ s).move (memRead_move e' _ _ s _) e
  | driveCs high =>
    obtain rfl : driveCs high s = t := by simpa [hostAction] using h
    obtain ⟨hacts, hmove⟩ := driveCs_move high s (some (.driveCs high))
    exact hacts.move hmove e
  | reset =>
    obtain rfl : s.resetBlock = t := by simpa [hostAction] using h
    cases e <;> exact .reset rfl rfl

/-- A sequencer's turn moves every engine. -/
theorem sequencerTurn_move {e' : EngineId} {s t : State} (h : sequencerTurn e' s = .next t) (e : EngineId)
    (op : Option HostOp) : EngineMove (.sequencer e') e op (s.engine e) (t.engine e) s.cs t.cs := by
  obtain ⟨hf, hturn⟩ | ⟨_, _, hturn⟩ | ⟨_, hbusy, i, hrun, hturn⟩ | ⟨_, _, _, hturn⟩ := sequencerTurn_cases e' s <;>
    rw [hturn] at h
  · obtain rfl : s.unspecify e' = t := by simpa using h
    exact (s.actsOn_unspecify e').move (.lost_of_unspecify hf rfl rfl) e
  · obtain rfl : s = t := by simpa using h
    exact .refl _ _ _ _ _ _ fun _ => rfl
  · obtain rfl := runningCommand_engine hrun
    refine (exec_actsOn h).move ?_ e
    obtain ⟨o, y, hmove, rfl⟩ := exec_next_iff.1 h
    rw [State.engine_setEngine, State.setEngine_cs, State.observed_cs]
    exact .ran i o rfl hbusy hrun hmove fun _ => rfl
  · cases h

/-- A step is the turn of one agent in the same state, its turn taken from the list (20_memory R80, log 3). -/
theorem step_eq_agentTurn (s : State) :
    ∃ a turns tick, step s = agentTurn a { s with turns := turns, tick := tick } := by
  unfold step nextTurn
  split
  · exact ⟨_, _, _, rfl⟩
  · exact ⟨_, _, _, rfl⟩

/-- One step of the machine moves every engine. -/
theorem step_move {s t : State} (h : step s = .next t) (e : EngineId) :
    ∃ a, EngineMove a e s.hostOps.head? (s.engine e) (t.engine e) s.cs t.cs := by
  obtain ⟨a, turns, tick, hstep⟩ := step_eq_agentTurn s
  rw [hstep] at h
  refine ⟨a, ?_⟩
  cases a with
  | host =>
    simp only [agentTurn, hostTurn] at h
    split at h
    · obtain rfl : { s with turns := turns, tick := tick } = t := by simpa using h
      cases e <;> exact .refl _ _ _ _ _ _ fun _ => rfl
    · next op rest hops =>
      have hops' : s.hostOps = op :: rest := hops
      rw [hops', List.head?_cons]
      cases e
      · exact hostAction_move h .i2ce
      · exact hostAction_move h .spie
  | sequencer e' =>
    cases e
    · exact sequencerTurn_move h .i2ce _
    · exact sequencerTurn_move h .spie _

end Sys2Proof.Machine
end

section
/-! The invariant of the machine (O32, O33, O34). -/

namespace Sys2Proof.Machine

/-! ### What a command's step keeps -/

/-- A command's step records no CmdWhileBusy and removes no fault. -/
theorem ExecMove.sticky {i : Instr} {x y : Engine} {o : Option Event} (h : ExecMove i x o y) :
    y.faults.cmdWhileBusy = x.faults.cmdWhileBusy ∧ ∀ k, x.faults.has k = true → y.faults.has k = true := by
  cases h with
  | accepted idle wf =>
    refine ⟨?_, fun k hk => by rw [Engine.accept_faults_has, hk]; rfl⟩
    have := x.accept_faults_has i (firstRow i).1 .cmdWhileBusy
    simpa [FaultSet.has] using this
  | rejected idle wf => exact ⟨rfl, fun _ hk => hk⟩
  | ran r label row inBuf =>
    rw [(r.engine_sameCommand i.engine x).faults]
    exact ⟨rfl, fun _ hk => hk⟩

/-- A command's step keeps BUF canonical. -/
theorem ExecMove.bufWf {i : Instr} {x y : Engine} {o : Option Event} (h : ExecMove i x o y) (hx : x.buf.wf = true) :
    y.buf.wf = true := by
  cases h with
  | accepted idle wf => simpa using hx
  | rejected idle wf => exact hx
  | ran r label row inBuf => exact r.engine_buf_wf i.engine x hx inBuf

/-- A command's step keeps the invariant of its engine. -/
theorem ExecMove.engineInv {i : Instr} {x y : Engine} {o : Option Event} (h : ExecMove i x o y)
    (hx : EngineInv i.engine x) : EngineInv i.engine y := by
  cases h with
  | accepted idle wf => exact hx.accepted idle wf
  | rejected idle wf => exact hx.touched (x.touched_rej true)
  | ran r label row inBuf =>
    refine hx.ran ?_ row
    by_contra hbusy
    rw [hx.idle (by simpa using hbusy)] at label
    cases label

/-- The CS events and CSDRV go together: a row that sets CSDRV drives the line Low, one that leaves CSDRV leaves the line
(42_spi R172). -/
theorem Engine.row_cs {x : Engine} {r : Row} (h : x.row = some r) (e : EngineId) (c : CsLevel) :
    (r.csdrv = none → c.after (r.event e x) = c) ∧ (r.csdrv = some true → c.after (r.event e x) = .low) := by
  cases hm : x.mpc <;> simp only [Engine.row, hm, reduceCtorEq, Option.some.injEq] at h <;> subst h <;>
    simp [Row.event, MicroOp.event, CsLevel.after]

/-- Where CSDRV is 1 after a command's step, the step left the CS line as it was with CSDRV = 1 before, or drove it Low. -/
theorem ExecMove.cs {i : Instr} {x y : Engine} {o : Option Event} (h : ExecMove i x o y) (c : CsLevel)
    (hcs : y.status.csdrv = true) : c.after o = .low ∨ (x.status.csdrv = true ∧ c.after o = c) := by
  cases h with
  | accepted idle wf => exact .inr ⟨by simpa using hcs, rfl⟩
  | rejected idle wf => exact .inr ⟨hcs, rfl⟩
  | ran r label row inBuf =>
    obtain ⟨hnone, htrue⟩ := Engine.row_cs row i.engine c
    rw [Row.engine_csdrv] at hcs
    cases hr : r.csdrv with
    | none => exact .inr ⟨by simpa [hr] using hcs, hnone hr⟩
    | some b =>
      obtain rfl : b = true := by simpa [hr] using hcs
      exact .inl (htrue hr)

/-! ### What a step of the machine keeps -/

section
variable {a : Agent} {e : EngineId} {op : Option HostOp} {x y : Engine} {c c' : CsLevel}

/-- An engine at rest, with CSDRV 0 and RESULT one of the table, has the invariant. -/
theorem EngineInv.of_idle (e : EngineId) {x : Engine} (h : x.Idle) (hcs : x.status.csdrv = false)
    (hresult : resultOk x.result = true) : EngineInv e x := by
  obtain ⟨hbusy, hidle⟩ := h
  constructor <;> simp_all [selectedAt, payloadAt, awaitSite, failingAt]

/-- No step removes a recorded host fault. -/
theorem EngineMove.sticky (h : EngineMove a e op x y c c') {k : HostFaultKind} (hk : x.faults.has k = true) :
    y.faults.has k = true := by
  cases h with
  | touched move cs => exact move.sticky k hk
  | lost fault sticky buf => exact sticky k hk
  | reset host move => rw [move]; exact hk
  | issued w i o host busy decoded move cs => exact move.sticky.2 k hk
  | ran i o turn busy running move cs => exact move.sticky.2 k hk

/-- An engine without a CmdWhileBusy after a step had none before. -/
theorem EngineMove.cmdWhileBusy_before (h : EngineMove a e op x y c c') (hy : y.faults.cmdWhileBusy = false) :
    x.faults.cmdWhileBusy = false := by
  by_contra hx
  have hk := h.sticky (k := .cmdWhileBusy) (by simpa [FaultSet.has] using hx)
  simp [FaultSet.has, hy] at hk

theorem EngineMove.bufWf (h : EngineMove a e op x y c c') (hx : x.buf.wf = true) : y.buf.wf = true := by
  cases h with
  | touched move cs => exact move.bufWf hx
  | lost fault sticky buf => rw [buf]; rfl
  | reset host move => rw [move]; rfl
  | issued w i o host busy decoded move cs => exact move.bufWf hx
  | ran i o turn busy running move cs => exact move.bufWf hx

theorem EngineMove.engineInv (h : EngineMove a e op x y c c')
    (hx : x.faults.cmdWhileBusy = false → EngineInv e x) (hy : y.faults.cmdWhileBusy = false) : EngineInv e y := by
  have hinv := hx (h.cmdWhileBusy_before hy)
  cases h with
  | touched move cs => exact hinv.touched move
  | lost fault sticky buf => simp [hy] at fault
  | reset host move => rw [move]; exact .of_idle e ⟨rfl, rfl⟩ rfl rfl
  | issued w i o host busy decoded move cs =>
    obtain ⟨_, rfl, _⟩ := decode_ok decoded
    exact move.engineInv hinv
  | ran i o turn busy running move cs =>
    obtain rfl := runningCommand_engine running
    exact move.engineInv hinv

/-- While SPIE holds CS after a step, a contention was recorded and the line is Unknown, or the line is Low, or it is as it
was, with SPIE holding CS before (10_state R56, 60_exceptions R233). -/
theorem EngineMove.cs (h : EngineMove a .spie op x y c c') (hy : y.faults.cmdWhileBusy = false)
    (hcs : y.status.csdrv = true) :
    (y.faults.csContention = true ∧ c' = .unknown) ∨ c' = .low ∨ (x.status.csdrv = true ∧ c' = c) := by
  cases h with
  | touched move cs =>
    rw [move.csdrv] at hcs
    obtain hc | hfalse | hunknown := cs rfl
    · exact .inr (.inr ⟨hcs, hc⟩)
    · simp [hcs] at hfalse
    · exact .inl hunknown
  | lost fault sticky buf => simp [hy] at fault
  | reset host move => rw [move] at hcs; cases hcs
  | issued w i o host busy decoded move cs =>
    rw [cs rfl]
    exact .inr (move.cs c hcs)
  | ran i o turn busy running move cs =>
    rw [cs rfl]
    exact .inr (move.cs c hcs)

end

/-- Every step of every agent keeps the invariant. -/
theorem Inv.step {s t : State} (hs : Inv s) (h : step s = .next t) : Inv t := by
  obtain ⟨_, hi2c⟩ := step_move h .i2ce
  obtain ⟨_, hspi⟩ := step_move h .spie
  refine
    { i2cBuf := hi2c.bufWf hs.i2cBuf, spiBuf := hspi.bufWf hs.spiBuf, i2c := hi2c.engineInv hs.i2c
      spi := hspi.engineInv hs.spi, csNotHigh := fun hf hcs => ?_, csLow := fun hf hcont hcs => ?_ }
  · have hf' := hspi.cmdWhileBusy_before hf
    obtain ⟨_, hc⟩ | hc | ⟨hcs', hc⟩ := hspi.cs hf hcs
    · rw [hc]; simp
    · rw [hc]; simp
    · rw [hc]; exact hs.csNotHigh hf' hcs'
  · have hf' := hspi.cmdWhileBusy_before hf
    obtain ⟨hcont', _⟩ | hc | ⟨hcs', hc⟩ := hspi.cs hf hcs
    · exact absurd hcont' (by simpa using hcont)
    · exact hc
    · rw [hc]
      refine hs.csLow hf' ?_ hcs'
      by_contra hcont'
      have := hspi.sticky (k := .csContention) (by simpa [FaultSet.has] using hcont')
      simp only [FaultSet.has] at this
      exact absurd this (by simpa using hcont)

/-- The invariant does not read the host's lists. -/
theorem Inv.congr {s u : State} (h : Inv s) (hi : u.i2c = s.i2c) (hs : u.spi = s.spi) (hc : u.cs = s.cs) : Inv u where
  i2cBuf := by rw [hi]; exact h.i2cBuf
  spiBuf := by rw [hs]; exact h.spiBuf
  i2c := by rw [hi]; exact h.i2c
  spi := by rw [hs]; exact h.spi
  csNotHigh := by rw [hs, hc]; exact h.csNotHigh
  csLow := by rw [hs, hc]; exact h.csLow

theorem Inv.engine {s : State} (h : Inv s) (e : EngineId) (hf : (s.engine e).faults.cmdWhileBusy = false) :
    EngineInv e (s.engine e) := by
  cases e with
  | i2ce => exact h.i2c hf
  | spie => exact h.spi hf

/-! ### No step stops -/

/-- An engine with the invariant can take a step of a command from IDLE, or of the command it runs: the row is there, and a
payload row finds its byte in BUF (00_scope R14). -/
theorem EngineInv.execMove {i : Instr} {x : Engine} (hx : EngineInv i.engine x)
    (h : x.mpc = .idle ∨ labelOpcode x.mpc = some i.opcode) : ∃ o y, ExecMove i x o y := by
  obtain hidle | hlabel := h
  · cases hwf : i.wellFormed
    · exact ⟨_, _, .rejected hidle hwf⟩
    · exact ⟨_, _, .accepted hidle hwf⟩
  · obtain ⟨r, hrow⟩ := Engine.row_isSome (x := x) (by intro hidle; simp [hidle, labelOpcode] at hlabel)
    refine ⟨_, _, .ran r hlabel hrow fun hindexed => ?_⟩
    have hf := Engine.row_fits hrow
    have hpay : payloadAt x.mpc = true := by
      unfold Row.Fits at hf
      split at hf
      case h_4 => exact hf.2.2.2.1
      case h_5 => exact hf.2.2.2.1
      all_goals next hop => simp [hop, MicroOp.indexed] at hindexed
    have := hx.payload hpay
    have := x.latch.n.isLt
    simp only [Config.bufSize]
    omega

theorem EngineInv.exec_next {i : Instr} {s : State} (hx : EngineInv i.engine (s.engine i.engine))
    (h : (s.engine i.engine).mpc = .idle ∨ labelOpcode (s.engine i.engine).mpc = some i.opcode) :
    ∃ t, exec i s = .next t := by
  obtain ⟨o, y, hmove⟩ := hx.execMove h
  exact ⟨_, exec_next_iff.2 ⟨o, y, hmove, rfl⟩⟩

/-- A host write answers a next state. -/
theorem Inv.memWrite_next {s : State} (hs : Inv s) (e : EngineId) (off : BitVec 9) (size : AccessSize)
    (v : BitVec 32) : ∃ t, memWrite e off size v s = .next t := by
  unfold memWrite
  dsimp only
  split
  · exact ⟨_, rfl⟩
  · next hf =>
    split
    · exact ⟨_, rfl⟩
    · obtain ⟨_, hw⟩ | ⟨_, _, _, hw⟩ | ⟨hbusy, i, hdec, hw⟩ := writeCmd_cases e v s <;> rw [hw]
      · exact ⟨_, rfl⟩
      · exact ⟨_, rfl⟩
      · obtain ⟨_, rfl, _⟩ := decode_ok hdec
        have hinv := hs.engine i.engine (by simpa using hf)
        exact hinv.exec_next (.inl (hinv.idle hbusy))
    · exact ⟨_, rfl⟩
    · exact ⟨_, rfl⟩
    · exact ⟨_, rfl⟩
    · split <;> exact ⟨_, rfl⟩

theorem Inv.hostAction_next {s : State} (hs : Inv s) (op : HostOp) : ∃ t, hostAction op s = .next t := by
  cases op with
  | write e off size v => exact hs.memWrite_next e off size v
  | read e off size => exact ⟨_, rfl⟩
  | wait e => exact ⟨_, rfl⟩
  | driveCs high => exact ⟨_, rfl⟩
  | reset => exact ⟨_, rfl⟩

theorem Inv.sequencerTurn_next {s : State} (hs : Inv s) (e : EngineId) : ∃ t, sequencerTurn e s = .next t := by
  obtain ⟨_, hturn⟩ | ⟨_, _, hturn⟩ | ⟨hf, hbusy, i, hrun, hturn⟩ | ⟨hf, hbusy, hnone, _⟩ := sequencerTurn_cases e s
  · exact ⟨_, hturn⟩
  · exact ⟨_, hturn⟩
  · obtain rfl := runningCommand_engine hrun
    have hinv := hs.engine i.engine hf
    obtain ⟨j, hrun', _, _, hlabel⟩ := hinv.running hbusy
    obtain rfl : i = j := by simpa [hrun] using hrun'
    rw [hturn]
    exact hinv.exec_next (.inr hlabel)
  · obtain ⟨j, hrun, _⟩ := (hs.engine e hf).running hbusy
    simp [hnone] at hrun

theorem Inv.step_next {s : State} (hs : Inv s) : ∃ t, Sys2Proof.Machine.step s = .next t := by
  obtain ⟨a, turns, tick, hstep⟩ := step_eq_agentTurn s
  rw [hstep]
  cases a with
  | host =>
    simp only [agentTurn, hostTurn]
    split
    · exact ⟨_, rfl⟩
    · refine Inv.hostAction_next ?_ _
      exact hs.congr rfl rfl rfl
  | sequencer e =>
    refine Inv.sequencerTurn_next ?_ e
    exact hs.congr rfl rfl rfl

/-! ### The obligations -/

/-- Settles O32: each engine and the CS line by the move the step makes (`EngineMove`). -/
theorem stepKeepsInvariant : Obligations.StepKeepsInvariant :=
  fun _ _ hs h => hs.step h

/-- Settles O33: the reset state. -/
theorem resetHasInvariant : Obligations.ResetHasInvariant where
  i2cBuf := reset_buf_wf.1
  spiBuf := reset_buf_wf.2
  i2c := fun _ => .of_idle .i2ce ⟨rfl, rfl⟩ rfl rfl
  spi := fun _ => .of_idle .spie ⟨rfl, rfl⟩ rfl rfl
  csNotHigh := by intro _ h; cases h
  csLow := by intro _ _ h; cases h

/-- Settles O34: by the invariant the label has a row and a payload row finds its byte. -/
theorem invariantStatesStepOn : Obligations.InvariantStatesStepOn :=
  fun _ hs => hs.step_next

end Sys2Proof.Machine
end

section
/-! Whole-machine statements of 10_state and 60_exceptions, each a case split on the move a step makes of an engine (O6, O19,
O20, O21, O26, O28, O29). -/

namespace Sys2Proof.Machine

/-! ### More of what a command's step keeps -/

/-- A command's step adds at most its one event to the trace (10_state R41). -/
theorem ExecMove.trace {i : Instr} {x y : Engine} {o : Option Event} (h : ExecMove i x o y) :
    y.trace = x.trace ++ o.toList := by
  cases h with
  | accepted idle wf => simp
  | rejected idle wf => simp
  | ran r label row inBuf => exact r.engine_trace i.engine x

/-- From IDLE a command's step emits nothing. -/
theorem ExecMove.event_of_idle {i : Instr} {x y : Engine} {o : Option Event} (h : ExecMove i x o y)
    (hx : x.mpc = .idle) : o = none := by
  cases h with
  | accepted idle wf => rfl
  | rejected idle wf => rfl
  | ran r label row inBuf => simp [hx, labelOpcode] at label

/-- A command's step clears neither VALID nor INIT (10_state R25, R27). -/
theorem ExecMove.valid_init {i : Instr} {x y : Engine} {o : Option Event} (h : ExecMove i x o y) :
    (x.status.valid = true → y.status.valid = true) ∧ (x.status.init = true → y.status.init = true) := by
  cases h with
  | accepted idle wf => simp
  | rejected idle wf => exact ⟨id, id⟩
  | ran r label row inBuf =>
    cases hfin : r.op.finishes
    · obtain ⟨_, _, hvalid, hinit⟩ := r.engine_unfinished i.engine x hfin
      rw [hvalid, hinit]
      exact ⟨id, id⟩
    · obtain ⟨_, hvalid, _, hinit⟩ := r.engine_finished i.engine x hfin
      exact ⟨fun _ => hvalid, hinit⟩

/-- A row that ends its command stands at a FINISH label (40_sequencer R116). -/
theorem Row.Fits.finishesAt {x : Engine} {r : Row} (hf : r.Fits x) (h : r.op.finishes = true) :
    finishesAt x.mpc = true := by
  unfold Row.Fits at hf
  split at hf
  case h_6 => exact hf.2.2.1
  case h_7 => exact hf.2.2.1
  all_goals next hop => simp [hop, MicroOp.finishes] at h

/-- A command's step clears BUSY only in its FINISH row (40_sequencer R116). -/
theorem ExecMove.busy_falls {i : Instr} {x y : Engine} {o : Option Event} (h : ExecMove i x o y)
    (hx : x.status.busy = true) (hy : y.status.busy = false) :
    finishesAt x.mpc = true ∧ y.status.valid = true ∧ y.mpc = .idle := by
  cases h with
  | accepted idle wf => simp at hy
  | rejected idle wf => simp [hx] at hy
  | ran r label row inBuf =>
    cases hfin : r.op.finishes
    · rw [(r.engine_unfinished i.engine x hfin).2.1, hx] at hy
      cases hy
    · obtain ⟨_, hvalid, hmpc, _⟩ := r.engine_finished i.engine x hfin
      exact ⟨(Engine.row_fits row).finishesAt hfin, hvalid, hmpc⟩

/-! ### Sequencers (40_sequencer R111) -/

/-- Settles O6: with the turn fixed, the step is that sequencer's turn. -/
theorem sequencerStepsIffBusy : Obligations.SequencerStepsIffBusy := by
  intro s e turns hturns hf
  have hstep : step s = sequencerTurn e { s with turns := turns } := by
    simp only [step, nextTurn, hturns, agentTurn]
  have hengine : State.engine { s with turns := turns } e = s.engine e := by cases e <;> rfl
  rw [hstep]
  unfold sequencerTurn
  rw [hengine]
  refine ⟨fun hbusy i hrun => ?_, fun hbusy => ?_⟩ <;> simp [hf, hbusy]
  simp [hrun]

/-- Settles O28: a command's step adds at most its event, and no host access runs a row. -/
theorem traceGrowsByAtMostOneEvent : Obligations.TraceGrowsByAtMostOneEvent := by
  refine ⟨fun s t e hf h => ?_, fun s t op e hs hop h hf => ?_⟩
  · obtain ⟨hf', _⟩ | ⟨_, _, hturn⟩ | ⟨_, _, i, hrun, hturn⟩ | ⟨_, _, _, hturn⟩ := sequencerTurn_cases e s
    · simp [hf] at hf'
    · obtain rfl : s = t := by simpa [hturn] using h
      exact ⟨[], by simp, by simp⟩
    · obtain rfl := runningCommand_engine hrun
      rw [hturn] at h
      obtain ⟨o, y, hmove, rfl⟩ := exec_next_iff.1 h
      refine ⟨o.toList, ?_, ?_⟩
      · cases o <;> simp
      · rw [State.engine_setEngine, hmove.trace]
    · rw [hturn] at h
      cases h
  · have hmove := hostAction_move h e
    have hinv := hs.engine e (hmove.cmdWhileBusy_before hf)
    cases hmove with
    | touched move cs => exact move.trace
    | lost fault sticky buf => simp [hf] at fault
    | reset host move => exact absurd (Option.some.inj host) hop
    | issued w i o host busy decoded move cs =>
      rw [move.trace, move.event_of_idle (hinv.idle busy)]
      exact List.append_nil _
    | ran i o turn busy running move cs => cases turn

/-! ### Independence of the engines (60_exceptions R240, 20_memory R85) -/

/-- `u` agrees with `s` on what belongs to engine `e`: the engine, its peripheral and, for SPIE, the CS line. -/
structure Agree (e : EngineId) (s u : State) : Prop where
  engine : u.engine e = s.engine e
  i2cPer : e = .i2ce → u.i2cPer = s.i2cPer
  spiPer : e = .spie → u.spiPer = s.spiPer
  cs : e = .spie → u.cs = s.cs

theorem Agree.refl (e : EngineId) (s : State) : Agree e s s := ⟨rfl, fun _ => rfl, fun _ => rfl, fun _ => rfl⟩

/-- An event does the same where its engine's part is the same. -/
theorem Agree.observed {e : EngineId} {s u : State} (h : Agree e s u) (o : Option Event) :
    Agree e (s.observed o) (u.observed o) := by
  cases o with
  | none => exact h
  | some ev =>
    obtain ⟨hi, hs, hc⟩ := State.applyEvent_congr (s := s) (u := u) ev
    exact ⟨by rw [State.engine_observed, State.engine_observed, h.engine], fun he => hi (h.i2cPer he),
      fun he => hs (h.spiPer he), fun he => hc (h.cs he)⟩

theorem Agree.setEngine {e : EngineId} {s u : State} (h : Agree e s u) (x : Engine) :
    Agree e (s.setEngine e x) (u.setEngine e x) := by
  obtain ⟨_, hi, hs, hc⟩ := h
  cases e <;> exact ⟨rfl, hi, hs, hc⟩

/-- An event leaves what belongs to the other engine. -/
theorem Agree.of_observed {e e' : EngineId} (he : e' ≠ e) (s : State) {o : Option Event}
    (ho : ∀ ev, o = some ev → ev.owner = e) : Agree e' s (s.observed o) := by
  cases o with
  | none => exact .refl e' s
  | some ev =>
    have howner := ho ev rfl
    refine ⟨s.engine_observed e' _, ?_, ?_, ?_⟩ <;> rintro rfl <;> cases e <;> try exact absurd rfl he
    · exact s.applyEvent_owner_spie howner
    · exact (s.applyEvent_owner_i2ce howner).1
    · exact (s.applyEvent_owner_i2ce howner).2

theorem Agree.of_setEngine {e e' : EngineId} (he : e' ≠ e) {s u : State} (h : Agree e' s u) (x : Engine) :
    Agree e' s (u.setEngine e x) := by
  obtain ⟨hengine, hi, hs, hc⟩ := h
  refine ⟨by rw [State.engine_setEngine_ne _ he, hengine], ?_, ?_, ?_⟩ <;> cases e <;> assumption

/-- Losing the specified behaviour is the loss of one engine's part, and reads that part alone. -/
theorem Agree.unspecify {e : EngineId} {s u : State} (h : Agree e s u) : Agree e (s.unspecify e) (u.unspecify e) := by
  obtain ⟨hengine, _, _, _⟩ := h
  cases e <;> simp only [State.engine_i2ce, State.engine_spie] at hengine <;>
    constructor <;> simp [State.unspecify, hengine]

theorem Agree.of_unspecify {e e' : EngineId} (he : e' ≠ e) (s : State) : Agree e' s (s.unspecify e) := by
  cases e <;> cases e' <;> try exact absurd rfl he
  · exact ⟨rfl, by simp, fun _ => rfl, fun _ => rfl⟩
  · exact ⟨rfl, fun _ => rfl, by simp, by simp⟩

/-- A sequencer's turn leaves the other engine's part. -/
theorem sequencerTurn_others {e e' : EngineId} (he : e' ≠ e) {s t : State} (h : sequencerTurn e s = .next t) :
    Agree e' s t := by
  obtain ⟨_, hturn⟩ | ⟨_, _, hturn⟩ | ⟨_, _, i, hrun, hturn⟩ | ⟨_, _, _, hturn⟩ := sequencerTurn_cases e s <;>
    rw [hturn] at h
  · cases h
    exact .of_unspecify he s
  · cases h
    exact .refl e' s
  · obtain rfl := runningCommand_engine hrun
    obtain ⟨o, y, hmove, rfl⟩ := exec_next_iff.1 h
    exact .of_setEngine he (.of_observed he s fun ev hev => by subst hev; exact hmove.event_owner) y
  · cases h

/-- A sequencer's turn reads its own engine's part alone. -/
theorem sequencerTurn_congr {e : EngineId} {s s' t : State} (hag : Agree e s s') (h : sequencerTurn e s = .next t) :
    ∃ t', sequencerTurn e s' = .next t' ∧ Agree e t t' := by
  obtain ⟨hf, hturn⟩ | ⟨hf, hb, hturn⟩ | ⟨hf, hb, i, hrun, hturn⟩ | ⟨_, _, _, hturn⟩ := sequencerTurn_cases e s <;>
    rw [hturn] at h
  · cases h
    exact ⟨_, by simp [sequencerTurn, hag.engine, hf], hag.unspecify⟩
  · cases h
    exact ⟨s', by simp [sequencerTurn, hag.engine, hf, hb], hag⟩
  · obtain rfl := runningCommand_engine hrun
    obtain ⟨o, y, hmove, rfl⟩ := exec_next_iff.1 h
    have hexec : exec i s' = .next ((s'.observed o).setEngine i.engine y) :=
      exec_next_iff.2 ⟨o, y, by rw [hag.engine]; exact hmove, rfl⟩
    exact ⟨_, by simp [sequencerTurn, hag.engine, hf, hb, hrun, hexec], (hag.observed o).setEngine y⟩
  · cases h

/-- Settles O29: a turn is one move of its own engine's part. -/
theorem enginesAreIndependent : Obligations.EnginesAreIndependent := by
  refine ⟨fun s t h => ?_, fun s t h => ?_⟩
  · have hothers := sequencerTurn_others (e' := .spie) (by simp) h
    refine ⟨hothers.engine, hothers.spiPer rfl, hothers.cs rfl, fun s' hx hper => ?_⟩
    obtain ⟨t', hturn, hag⟩ := sequencerTurn_congr (s' := s') (e := .i2ce) ⟨hx, fun _ => hper, by simp, by simp⟩ h
    exact ⟨t', hturn, hag.engine, hag.i2cPer rfl⟩
  · have hothers := sequencerTurn_others (e' := .i2ce) (by simp) h
    refine ⟨hothers.engine, hothers.i2cPer rfl, fun s' hx hper hcs => ?_⟩
    obtain ⟨t', hturn, hag⟩ := sequencerTurn_congr (s' := s') (e := .spie) ⟨hx, by simp, fun _ => hper, fun _ => hcs⟩ h
    exact ⟨t', hturn, hag.engine, hag.spiPer rfl, hag.cs rfl⟩

/-! ### Flags and faults over a step -/

/-- Settles O26: every move of an engine keeps its recorded faults. -/
theorem hostFaultsAreSticky : Obligations.HostFaultsAreSticky := by
  intro s t e k h hk
  obtain ⟨_, hmove⟩ := step_move h e
  exact hmove.sticky hk

/-- Settles O21: but for reset, no move clears VALID or INIT. -/
theorem validAndInitPersist : Obligations.ValidAndInitPersist := by
  intro s t e h hf hreset
  obtain ⟨_, hmove⟩ := step_move h e
  cases hmove with
  | touched move cs => rw [move.valid, move.init]; exact ⟨id, id⟩
  | lost fault sticky buf => simp [hf] at fault
  | reset host move => exact absurd host hreset
  | issued w i o host busy decoded move cs => exact move.valid_init
  | ran i o turn busy running move cs => exact move.valid_init

/-- Settles O20: a busy engine moves by its sequencer, and BUSY falls only in a FINISH row. -/
theorem busyClearedOnlyByFinish : Obligations.BusyClearedOnlyByFinish := by
  intro s t e _ h hf hreset hbusy hdone
  obtain ⟨_, hmove⟩ := step_move h e
  cases hmove with
  | touched move cs => rw [move.busy, hbusy] at hdone; cases hdone
  | lost fault sticky buf => simp [hf] at fault
  | reset host move => exact absurd host hreset
  | issued w i o host busy decoded move cs => rw [hbusy] at busy; cases busy
  | ran i o turn busy running move cs => exact move.busy_falls hbusy hdone

/-! ### CMD (10_state R22) -/

/-- Within the spec a word written to CMD reaches the decoder or is a CmdWhileBusy (40_sequencer R110). -/
theorem memWrite_cmd {e : EngineId} {s : State} (h : (s.engine e).faults.cmdWhileBusy = false) (w : Word) :
    memWrite e 0x000 .four w s = writeCmd e w s := by
  simp [memWrite, h, regionOf]

/-- A well-formed command that starts from IDLE leaves its word in CMD. -/
theorem ExecMove.cmd_of_idle {i : Instr} {x y : Engine} {o : Option Event} (h : ExecMove i x o y)
    (hx : x.mpc = .idle) (hwf : i.wellFormed = true) : y.cmd = encode i := by
  cases h with
  | accepted idle wf => simp
  | rejected idle wf => simp [hwf] at wf
  | ran r label row inBuf => simp [hx, labelOpcode] at label

/-- A command past IDLE leaves CMD. -/
theorem ExecMove.cmd_of_running {i : Instr} {x y : Engine} {o : Option Event} (h : ExecMove i x o y)
    (hx : x.mpc ≠ .idle) : y.cmd = x.cmd := by
  cases h with
  | accepted idle wf => exact absurd idle hx
  | rejected idle wf => exact absurd idle hx
  | ran r label row inBuf => exact (r.engine_sameCommand i.engine x).cmd

/-- A busy engine with the invariant is past IDLE. -/
theorem EngineInv.mpc_ne_idle {e : EngineId} {x : Engine} (h : EngineInv e x) (hb : x.status.busy = true) :
    x.mpc ≠ .idle := by
  intro hidle
  obtain ⟨i, _, _, _, hlabel⟩ := h.running hb
  simp [hidle, labelOpcode] at hlabel

/-- Settles O19: the word is stored at acceptance, where it is the encoding of what it decodes to. -/
theorem cmdReadsLastAcceptedWord : Obligations.CmdReadsLastAcceptedWord := by
  refine ⟨rfl, rfl, fun e s hf => ⟨(memRead_register e s hf).1, fun hidle w => ⟨fun i hdec => ?_, fun r hdec => ?_⟩,
    fun hs t h hf' => ?_⟩⟩
  · rw [memWrite_cmd hf]
    obtain ⟨hw, rfl, hwf⟩ := decode_ok hdec
    have hexec := exec_next_iff.2 ⟨_, _, .accepted hidle.2 hwf, rfl⟩
    exact ⟨_, by simpa [writeCmd, hidle.1, hdec] using hexec, by simp [hw]⟩
  · rw [memWrite_cmd hf]
    exact ⟨rejectCommand e s, by simp [writeCmd, hidle.1, hdec], by simp [rejectCommand]⟩
  · obtain ⟨_, hmove⟩ := step_move h e
    have hinv := hs.engine e hf
    cases hmove with
    | touched move cs => exact .inl move.cmd
    | lost fault sticky buf => simp [hf'] at fault
    | reset host move => exact .inr (.inl ⟨host, by rw [move]; rfl⟩)
    | issued w i o host busy decoded move cs =>
      obtain ⟨hw, rfl, hwf⟩ := decode_ok decoded
      refine .inr (.inr ⟨w, i, host, busy, decoded, ?_⟩)
      rw [move.cmd_of_idle (hinv.idle busy) hwf, hw]
    | ran i o turn busy running move cs => exact .inl (move.cmd_of_running (hinv.mpc_ne_idle busy))

end Sys2Proof.Machine
end

section
/-! The words the host reads, field by field (O18), and reset (O59, O60). -/

namespace Sys2Proof.Machine

/-! ### STATUS (10_state R23) -/

/-- The bits of STATUS. -/
theorem status_word_getLsbD (x : Status) (k : Nat) (hk : k < 32) :
    x.word.getLsbD k =
      ((decide (k = 0) && x.busy) || (decide (k = 1) && x.valid) || (decide (k = 2) && x.rej) ||
        (decide (k = 3) && x.init) || (decide (4 ≤ k) && x.phase.code.getLsbD (k - 4)) ||
        (decide (k = 7) && x.csdrv)) := by
  simp only [Status.word, BitVec.getLsbD_or, BitVec.getLsbD_shiftLeft, flagWord_getLsbD, BitVec.getLsbD_setWidth]
  interval_cases k <;> simp

/-- Each flag of STATUS at its bit. -/
theorem status_word_flags (x : Status) :
    x.word.getLsbD 0 = x.busy ∧ x.word.getLsbD 1 = x.valid ∧ x.word.getLsbD 2 = x.rej ∧ x.word.getLsbD 3 = x.init ∧
      x.word.getLsbD 7 = x.csdrv := by
  refine ⟨?_, ?_, ?_, ?_, ?_⟩ <;> rw [status_word_getLsbD x _ (by omega)] <;> simp

/-- PHASE at bits 6:4 of STATUS (10_state R28). -/
theorem status_word_phase (x : Status) : x.word.extractLsb' 4 3 = x.phase.code := by
  refine BitVec.eq_of_getLsbD_eq fun k hk => ?_
  rw [BitVec.getLsbD_extractLsb', status_word_getLsbD x _ (by omega)]
  interval_cases k <;> simp

/-- Bits 31:8 of STATUS are 0. -/
theorem status_word_high (x : Status) : x.word.extractLsb' 8 24 = 0 := by
  refine BitVec.eq_of_getLsbD_eq fun k hk => ?_
  rw [BitVec.getLsbD_extractLsb', status_word_getLsbD x _ (by omega)]
  have hphase : x.phase.code.getLsbD (8 + k - 4) = false := BitVec.getLsbD_of_ge _ _ (by omega)
  simp [hphase, show 8 + k ≠ 7 by omega, show 8 + k ≠ 1 by omega, show 8 + k ≠ 2 by omega, show 8 + k ≠ 3 by omega]

/-! ### RESULT (10_state R31) -/

/-- The bits of RESULT. -/
theorem result_word_getLsbD (r : Result) (k : Nat) (hk : k < 32) :
    r.word.getLsbD k =
      (r.outcome.code.getLsbD k || (decide (3 ≤ k) && (failsiteCode r.failsite).getLsbD (k - 3)) ||
        (decide (8 ≤ k) && r.residual.getLsbD (k - 8)) || (decide (16 ≤ k) && r.rdata.getLsbD (k - 16))) := by
  simp only [Result.word, BitVec.getLsbD_or, BitVec.getLsbD_shiftLeft, BitVec.getLsbD_setWidth]
  interval_cases k <;> simp

/-- Each field of RESULT at its bits. -/
theorem result_word_fields (r : Result) :
    r.word.extractLsb' 0 3 = r.outcome.code ∧ r.word.extractLsb' 3 5 = failsiteCode r.failsite ∧
      r.word.extractLsb' 8 8 = r.residual ∧ r.word.extractLsb' 16 16 = r.rdata := by
  refine ⟨?_, ?_, ?_, ?_⟩ <;> refine BitVec.eq_of_getLsbD_eq fun k hk => ?_ <;>
    rw [BitVec.getLsbD_extractLsb', result_word_getLsbD r _ (by omega)] <;> interval_cases k <;> simp

/-- A write to STATUS or RESULT is ignored within the spec (20_memory R70, 10_state R23, R31). -/
theorem memWrite_ignored {e : EngineId} {s : State} (h : (s.engine e).faults.cmdWhileBusy = false) (v : BitVec 32) :
    memWrite e 0x004 .four v s = .next s ∧ memWrite e 0x008 .four v s = .next s := by
  simp [memWrite, h, regionOf]

/-- Settles O18: each field at its bits of the words the host reads. -/
theorem statusAndResultWords : Obligations.StatusAndResultWords := by
  intro e s v hf
  obtain ⟨_, hstatus, hresult⟩ := memRead_register e s hf
  obtain ⟨hw4, hw8⟩ := memWrite_ignored hf v
  obtain ⟨hbusy, hvalid, hrej, hinit, hcsdrv⟩ := status_word_flags (s.engine e).status
  obtain ⟨houtcome, hsite, hresidual, hrdata⟩ := result_word_fields (s.engine e).result
  refine ⟨⟨_, hstatus, hbusy, hvalid, hrej, hinit, ?_, hcsdrv, status_word_high _, hw4⟩,
    ⟨_, hresult, ?_, ?_, hresidual, hrdata, hw8⟩⟩
  · rw [status_word_phase]
    cases (s.engine e).status.phase <;> rfl
  · rw [houtcome]
    cases (s.engine e).result.outcome <;> rfl
  · rw [hsite]
    cases (s.engine e).result.failsite with
    | none => rfl
    | some site => cases site <;> rfl

/-! ### Reset (70_reset R250) -/

/-- Settles O59: the reset state, engine by engine. -/
theorem resetStateValues : Obligations.ResetStateValues := by
  refine ⟨fun e => ?_, rfl⟩
  cases e <;> refine ⟨rfl, rfl, rfl, rfl, fun k => ?_, rfl, fun k => rfl⟩ <;> cases k <;> rfl

/-- Settles O60: a reset answers `State.resetBlock`. -/
theorem resetAbandonsTheCommand : Obligations.ResetAbandonsTheCommand := by
  intro s
  refine ⟨s.resetBlock, rfl, fun e => ?_, rfl, rfl, fun hbusy => ?_, fun hbusy => ?_⟩
  · cases e <;> exact ⟨rfl, (rfl : Status.reset.word = 0), (rfl : Result.reset.word = 0), rfl, rfl, rfl, fun k => rfl⟩
  · simp [State.resetBlock, hbusy]
  · simp [State.resetBlock, hbusy]

end Sys2Proof.Machine
end

section
/-! The reference binding of REGMAP (O56): the fields at their places, and the accesses of the events. -/

namespace Sys2Proof.Machine

/-! ### Fields in words -/

/-- A one-bit place holds the flag at its bit. -/
theorem FieldPlace.of_flag (off pos : Nat) (w : BitVec 32) (b : Bool) (h : w.getLsbD pos = b) :
    (⟨off, pos, 1⟩ : FieldPlace).of w = flagWord b := by
  refine BitVec.eq_of_getLsbD_eq fun k hk => ?_
  rw [FieldPlace.of_getLsbD _ _ _ hk, flagWord_getLsbD]
  obtain rfl | hk0 := Nat.eq_zero_or_pos k
  · simpa using h
  · simp [show ¬ k < 1 by omega, show k ≠ 0 by omega]

/-- A place holds the field whose bits stand there. -/
theorem FieldPlace.of_field (off pos width : Nat) (w : BitVec 32) (v : BitVec width)
    (h : ∀ k, k < width → w.getLsbD (pos + k) = v.getLsbD k) :
    (⟨off, pos, width⟩ : FieldPlace).of w = v.setWidth 32 := by
  refine BitVec.eq_of_getLsbD_eq fun k hk => ?_
  rw [FieldPlace.of_getLsbD _ _ _ hk, BitVec.getLsbD_setWidth]
  by_cases hkw : k < width
  · simp [hk, hkw, h k hkw]
  · simp [hkw, BitVec.getLsbD_of_ge v k (by omega)]

/-- A flag that is 0 adds nothing to a word, and so does a field that is 0. -/
@[simp] theorem bitAt_false (pos : Nat) : bitAt false pos = 0#32 := by simp [bitAt, flagWord]
@[simp] theorem fieldAt_zero (w pos : Nat) : fieldAt (0#w) pos = 0#32 := by simp [fieldAt]

theorem bitAt_getElem (b : Bool) (pos k : Nat) (h : k < 32) : (bitAt b pos)[k] = (decide (k = pos) && b) := by
  rw [← BitVec.getLsbD_eq_getElem, bitAt_getLsbD b pos k h]

theorem fieldAt_getElem {w : Nat} (v : BitVec w) (pos k : Nat) (h : k < 32) :
    (fieldAt v pos)[k] = (decide (pos ≤ k) && v.getLsbD (k - pos)) := by
  rw [← BitVec.getLsbD_eq_getElem, fieldAt_getLsbD v pos k h]

/-- Each named field of the I2C peripheral stands at its place (10_state R45). -/
theorem reference_i2c_held (p : I2cPeripheral) (f : I2cField) :
    (referenceI2cPlace f).of (p.word (referenceI2cPlace f).off) = p.field f := by
  cases f with
  | flag f =>
    cases f <;> refine FieldPlace.of_flag _ _ _ _ ?_ <;>
      simp [I2cPeripheral.word, referenceI2cPlace, I2cFlag.isrBit, I2cStatus.word, bitAt_getElem]
  | pe =>
    refine FieldPlace.of_flag _ _ _ _ ?_
    simp [I2cPeripheral.word, referenceI2cPlace, I2cPeripheral.cr1, bitAt_getElem, fieldAt_getElem]
  | rdWrn | autoend | start | stop | add10 | reload | nackReq | pecByte =>
    refine FieldPlace.of_flag _ _ _ _ ?_
    simp [I2cPeripheral.word, referenceI2cPlace, I2cPeripheral.cr2, bitAt_getElem, fieldAt_getElem]
  | sadd | nbytes =>
    refine FieldPlace.of_field _ _ _ _ _ fun k hk => ?_
    interval_cases k <;>
      simp [I2cPeripheral.word, referenceI2cPlace, I2cPeripheral.cr2, bitAt_getElem, fieldAt_getElem]
  | presc | scldel | sdadel | sclh | scll =>
    refine FieldPlace.of_field _ _ _ _ _ fun k hk => ?_
    interval_cases k <;> simp [I2cPeripheral.word, referenceI2cPlace, I2cPeripheral.timingr, fieldAt_getElem]
  | txdata | rxdata =>
    refine FieldPlace.of_field _ _ _ _ _ fun k hk => ?_
    interval_cases k <;> simp [I2cPeripheral.word, referenceI2cPlace, fieldAt_getElem]

/-- Each named field of the SPI peripheral stands at its place (10_state R52). -/
theorem reference_spi_held (p : SpiPeripheral) (f : SpiField) :
    (referenceSpiPlace f).of (p.word (referenceSpiPlace f).off) = p.field RegMap.reference f := by
  cases f with
  | flag f =>
    cases f <;> refine FieldPlace.of_flag _ _ _ _ ?_ <;>
      simp [SpiPeripheral.word, referenceSpiPlace, SpiFlag.srBit, SpiStatus.word, bitAt_getElem, fieldAt_getElem]
  | mstr | ssm | ssi | cpol | cpha | lsbfirst | spe =>
    refine FieldPlace.of_flag _ _ _ _ ?_
    simp [SpiPeripheral.word, referenceSpiPlace, SpiPeripheral.cr1, bitAt_getElem, fieldAt_getElem]
  | br =>
    refine FieldPlace.of_field _ _ _ _ _ fun k hk => ?_
    interval_cases k <;>
      simp [SpiPeripheral.word, referenceSpiPlace, SpiPeripheral.cr1, bitAt_getElem, fieldAt_getElem]
  | frame =>
    refine FieldPlace.of_field _ _ _ _ _ fun k hk => ?_
    interval_cases k <;>
      simp [SpiPeripheral.word, referenceSpiPlace, SpiPeripheral.cr2, bitAt_getElem, fieldAt_getElem]

/-! ### The accesses of the writing events -/

/-- Setting STOP is setting bit 14 of CR2 (10_state R43, R45). -/
theorem cr2_stop (p : I2cPeripheral) : { p with stop := true }.cr2 = p.cr2 ||| (1#32 <<< 14) := by
  refine BitVec.eq_of_getLsbD_eq fun k hk => ?_
  interval_cases k <;> simp [I2cPeripheral.cr2, bitAt_getElem, fieldAt_getElem]

/-- One register written: it holds the value, and the others what they held. -/
theorem written_word {word word' : Nat → BitVec 32} {o : Nat} {v : BitVec 32} (hat : word' o = v)
    (helse : ∀ off, off ≠ o → word' off = word off) : word' = (RegAccess.write o v).written word := by
  funext off
  by_cases h : off = o
  · subst h
    simpa [RegAccess.written] using hat
  · simpa [RegAccess.written, h] using helse off h

/-- CR2 as a transfer-control write leaves it, its unnamed fields 0 (10_state R43, R45). -/
theorem cr2_programmed (p : I2cPeripheral) (sadd : BitVec 10) (rdWrn : Bool) (nbytes : BitVec 8)
    (autoend start : Bool) :
    ({ p with
        sadd := sadd, rdWrn := rdWrn, nbytes := nbytes, autoend := autoend, start := start, stop := false
        add10 := false, head10r := false, reload := false, nackReq := false, pecByte := false } : I2cPeripheral).cr2 =
      fieldAt sadd 0 ||| bitAt rdWrn 10 ||| bitAt start 13 ||| fieldAt nbytes 16 ||| bitAt autoend 25 := by
  simp [I2cPeripheral.cr2]

/-- The I2C registers after a writing event are those its accesses write (10_state R43, R45). -/
theorem reference_i2c_writes (s : State) (ev : Event) (h : ev.writesI2cControl = true) :
    (s.applyEvent ev).i2cPer.word = (refAccess s.i2cPer ev).foldl RegAccess.written s.i2cPer.word := by
  cases ev <;> simp only [Event.writesI2cControl, reduceCtorEq] at h
  case i2cPe b =>
    refine written_word (by simp [I2cPeripheral.word, I2cPeripheral.cr1, I2cCr1Other.zero]) fun off hoff => ?_
    simp only [I2cPeripheral.word, hoff, if_false]
    rfl
  case i2cTiming presc scldel sdadel sclh scll =>
    refine written_word rfl fun off hoff => ?_
    simp only [I2cPeripheral.word, hoff, if_false]
    rfl
  case i2cCr2 sadd rdWrn nbytes autoend start =>
    refine written_word (by simp [I2cPeripheral.word, cr2_programmed]) fun off hoff => ?_
    simp only [I2cPeripheral.word, hoff, if_false]
    rfl
  case i2cStop =>
    refine written_word (cr2_stop s.i2cPer) fun off hoff => ?_
    simp only [I2cPeripheral.word, hoff, if_false]
    rfl
  case i2cTx b =>
    refine written_word rfl fun off hoff => ?_
    simp only [I2cPeripheral.word, hoff, if_false]
    rfl

/-- Writing SPE alone is writing bit 6 of CR1 (10_state R52). -/
theorem spi_cr1_spe (p : SpiPeripheral) (b : Bool) :
    { p with spe := b }.cr1 = (p.cr1 &&& ~~~(1#32 <<< 6)) ||| (bitAt b 6 &&& 1#32 <<< 6) := by
  refine BitVec.eq_of_getLsbD_eq fun k hk => ?_
  interval_cases k <;> simp [SpiPeripheral.cr1, bitAt_getElem, fieldAt_getElem]

/-- CR1 as SPI_CFG leaves it while SPE = 0 (42_spi R175, R190). -/
theorem spi_cr1_configured (s : State) (br : BitVec 3) (h : s.spiPer.spe = false) :
    (s.applyEvent (.spiCfg br)).spiPer.cr1 = 0x0304#32 ||| fieldAt br 3 := by
  refine BitVec.eq_of_getLsbD_eq fun k hk => ?_
  interval_cases k <;> simp [SpiPeripheral.cr1, SpiCr1Other.zero, bitAt_getElem, fieldAt_getElem, h]

/-- CR2 as SPI_CFG leaves it: 8-bit frames in its DS field (42_spi R175). -/
theorem spi_cr2_configured (s : State) (br : BitVec 3) :
    (s.applyEvent (.spiCfg br)).spiPer.cr2 =
      (s.spiPer.cr2 &&& ~~~0x0F00#32) ||| (0x0700#32 &&& 0x0F00#32) := by
  refine BitVec.eq_of_getLsbD_eq fun k hk => ?_
  interval_cases k <;> simp [SpiPeripheral.cr2, FrameSize.ds, bitAt_getElem, fieldAt_getElem]

/-- The SPI registers after a writing event are those its accesses write (10_state R50, R52). -/
theorem reference_spi_writes (s : State) (ev : Event) (h : ev.writesSpiControl = true)
    (hspe : (∃ br, ev = .spiCfg br) → s.spiPer.spe = false) :
    (s.applyEvent ev).spiPer.word = (refAccess s.i2cPer ev).foldl RegAccess.written s.spiPer.word := by
  funext off
  cases ev <;> simp only [Event.writesSpiControl, reduceCtorEq] at h
  case spiSpe b =>
    by_cases h0 : off = 0x00
    · simpa [refAccess, RegAccess.written, SpiPeripheral.word, h0] using spi_cr1_spe s.spiPer b
    · simp only [refAccess, RegAccess.written, SpiPeripheral.word, h0, if_false, List.foldl_cons, List.foldl_nil]
      rfl
  case spiCfg br =>
    have hcr1 := spi_cr1_configured s br (hspe ⟨br, rfl⟩)
    have hcr2 := spi_cr2_configured s br
    by_cases h0 : off = 0x00
    · simpa [refAccess, RegAccess.written, SpiPeripheral.word, h0] using hcr1
    · by_cases h4 : off = 0x04
      · simpa [refAccess, RegAccess.written, SpiPeripheral.word, h4] using hcr2
      · simp only [refAccess, RegAccess.written, SpiPeripheral.word, h0, h4, if_false, List.foldl_cons, List.foldl_nil]
        rfl

/-- The reference binding is sound (00_scope R9, log 20). -/
theorem reference_sound : RegMap.reference.Sound where
  i2cHeld := fun p f => by
    refine ⟨?_, reference_i2c_held p f⟩
    cases f <;> simp [RegMap.reference, referenceI2cPlace, i2cOffsets]
  spiHeld := fun p f => by
    refine ⟨?_, reference_spi_held p f⟩
    cases f <;> simp [RegMap.reference, referenceSpiPlace, spiOffsets]
  i2cWrites := fun s ev f h => by
    have hheld := reference_i2c_held (s.applyEvent ev).i2cPer f
    rw [reference_i2c_writes s ev h] at hheld
    exact hheld
  spiWrites := fun s ev f h hspe => by
    have hheld := reference_spi_held (s.applyEvent ev).spiPer f
    rw [reference_spi_writes s ev h hspe] at hheld
    exact hheld
  polls := fun p v => ⟨fun f => rfl, fun f => rfl⟩
  data := fun p b w => ⟨rfl, rfl, rfl, rfl, rfl⟩

/-- Clearing STOPF is clearing bit 5 of ISR (10_state R44, R45). -/
theorem isr_clear_stopf (r : I2cStatus) : { r with stopf := false }.word = r.word &&& ~~~0x20#32 := by
  refine BitVec.eq_of_getLsbD_eq fun k hk => ?_
  interval_cases k <;> simp [I2cStatus.word, bitAt_getElem]

/-- The bit of a polled flag in ISR, and in SR, is what the poll saw (10_state R44, R51). -/
theorem isr_observe (r : I2cStatus) (f : I2cFlag) (v : Bool) : (r.observe f v).word.getLsbD f.isrBit = v := by
  cases f <;> simp [I2cStatus.observe, I2cFlag.isrBit, I2cStatus.word, bitAt_getElem]

theorem sr_observe (r : SpiStatus) (f : SpiFlag) (v : Bool) : (r.observe f v).word.getLsbD f.srBit = v := by
  cases f <;> simp [SpiStatus.observe, SpiFlag.srBit, SpiStatus.word, bitAt_getElem, fieldAt_getElem]

/-- Settles O56: the binding is sound, and each access and each word is the one the event and the fields spell. -/
theorem referenceAccessesMatchFields : Obligations.ReferenceAccessesMatchFields := by
  refine ⟨reference_sound, fun s ev hev off _ => ?_, fun s ev hev off _ => ?_, fun s => ⟨rfl, isr_clear_stopf _⟩,
    fun s f v => ⟨f.isrBit, rfl, isr_observe _ f v⟩, fun s f v => ⟨f.srBit, rfl, sr_observe _ f v⟩,
    fun s v => ⟨rfl, ?_⟩, ?_, rfl, rfl, rfl⟩
  · refine congrFun (reference_i2c_writes s ev ?_) off
    obtain ⟨_, rfl⟩ | ⟨_, _, _, _, _, rfl⟩ | ⟨_, _, _, _, _, rfl⟩ | rfl | ⟨_, rfl⟩ := hev <;> rfl
  · obtain ⟨b, rfl⟩ | ⟨hspe, br, rfl⟩ := hev
    · exact congrFun (reference_spi_writes s _ rfl (by simp)) off
    · exact congrFun (reference_spi_writes s _ rfl (fun _ => hspe)) off
  · exact BitVec.shiftLeft_zero _
  · intro off hoff
    simp only [RegMap.reference, i2cOffsets, List.mem_cons, List.not_mem_nil, or_false] at hoff
    obtain rfl | rfl | rfl | rfl | rfl | rfl := hoff <;> rfl

end Sys2Proof.Machine
end

section
/-! The frames of the commands (O30, O31). -/

namespace Sys2Proof.Machine

/-! ### Which rows do what: the tables again, by opcode -/

section
variable {x : Engine} {r : Row}

/-- CSDRV is written at SI2, B0, B17 and BF0 alone (42_spi R172). -/
theorem Engine.row_csdrv (h : x.row = some r) (hcs : r.csdrv ≠ none) :
    x.mpc = .si2 ∨ x.mpc = .b0 ∨ x.mpc = .b17 ∨ x.mpc = .bf0 := by
  cases hm : x.mpc <;> simp only [Engine.row, hm, reduceCtorEq, Option.some.injEq] at h <;> subst h <;> simp at hcs ⊢

/-- BUF is written at RD6 and B16 alone (10_state R30). -/
theorem Engine.row_store {ev : Byte → Event} {again done : Label} (h : x.row = some r)
    (hop : r.op = .store ev again done) :
    x.mpc = .rd6 ∨ x.mpc = .b16 := by
  cases hm : x.mpc <;> simp only [Engine.row, hm, reduceCtorEq, Option.some.injEq] at h <;> subst h <;> simp at hop ⊢

/-- INIT is set by the two INIT commands alone (10_state R27). -/
theorem Engine.row_init {res : Result} (h : x.row = some r) (hop : r.op = .finish res true) :
    labelOpcode x.mpc = some 0x1 ∨ labelOpcode x.mpc = some 0x9 := by
  cases hm : x.mpc <;> simp only [Engine.row, hm, reduceCtorEq, Option.some.injEq] at h <;> subst h <;>
    simp at hop <;> simp [labelOpcode]

/-- A row that neither draws nor counts: EMIT and FINISH without a draw. -/
def Row.Quiet (r : Row) : Prop :=
  r.clearIdx = false ∧ ((∃ ev next, r.op = .emit ev next) ∨ ∃ res init, r.op = .finish res init)

/-- The rows of the INIT commands neither draw nor count (41_i2c R140, 42_spi R190). -/
theorem Engine.row_quiet (h : x.row = some r) (hl : labelOpcode x.mpc = some 0x1 ∨ labelOpcode x.mpc = some 0x9) :
    r.Quiet := by
  cases hm : x.mpc <;> simp [hm, labelOpcode] at hl <;>
    simp only [Engine.row, hm, Option.some.injEq] at h <;> subst h <;> simp [Row.Quiet]

/-- The rows of SPI_INIT, SPI_SR8 and SPI_SR16 leave BUF and idx (42_spi R190-R192). -/
theorem Engine.row_unindexed (h : x.row = some r)
    (hl : labelOpcode x.mpc = some 0x9 ∨ labelOpcode x.mpc = some 0xA ∨ labelOpcode x.mpc = some 0xB) :
    r.clearIdx = false ∧ r.op.indexed = false := by
  cases hm : x.mpc <;> simp [hm, labelOpcode] at hl <;>
    simp only [Engine.row, hm, Option.some.injEq] at h <;> subst h <;> simp [MicroOp.indexed]

/-- FINISH of SPI_INIT and SPI_BURST leaves RDATA (40_sequencer R116). -/
theorem Engine.row_rdata (h : x.row = some r)
    (hl : labelOpcode x.mpc = some 0x9 ∨ labelOpcode x.mpc = some 0xC) (e : EngineId) :
    (r.engine e x).result.rdata = x.result.rdata := by
  cases hfin : r.op.finishes
  · rw [(r.engine_unfinished e x hfin).1]
  · cases hm : x.mpc <;> simp [hm, labelOpcode] at hl <;>
      simp only [Engine.row, hm, Option.some.injEq] at h <;> subst h <;> simp [MicroOp.finishes] at hfin <;>
      (rw [Row.engine_finish_result rfl]; rfl)

/-- The events that write the configuration of a peripheral (41_i2c R140, 42_spi R190). -/
def Event.configures : Event → Bool
  | .i2cClkSel _ | .i2cPe _ | .i2cTiming _ _ _ _ _ | .spiSpe _ | .spiCfg _ => true
  | .i2cCr2 _ _ _ _ _ | .i2cStop | .i2cTx _ | .i2cRx _ | .i2cPoll _ _ | .i2cClrStopf | .spiTx8 _ | .spiTx16 _ | .spiRx8 _
  | .spiRx16 _ | .spiPoll _ _ | .csHigh | .csLow => false

/-- The INIT commands emit the configuration events, with CS_HIGH, and no other command does. -/
theorem Engine.row_configures {e : EngineId} {ev : Event} (h : x.row = some r) (he : r.event e x = some ev) :
    (ev.configures = true → labelOpcode x.mpc = some 0x1 ∨ labelOpcode x.mpc = some 0x9) ∧
      (labelOpcode x.mpc = some 0x1 ∨ labelOpcode x.mpc = some 0x9 → ev.configures = true ∨ ev = .csHigh) := by
  cases hm : x.mpc <;> simp only [Engine.row, hm, reduceCtorEq, Option.some.injEq] at h <;> subst h <;>
    simp only [Row.event, MicroOp.event, reduceCtorEq, Option.some.injEq] at he <;> subst he <;>
    simp [Event.configures, labelOpcode]

/-- Only I2C_READ receives over I2C (41_i2c R141). -/
theorem Engine.row_i2cRx {e : EngineId} {v : Byte} (h : x.row = some r) (he : r.event e x = some (.i2cRx v)) :
    labelOpcode x.mpc = some 0x2 := by
  cases hm : x.mpc <;> simp only [Engine.row, hm, reduceCtorEq, Option.some.injEq] at h <;> subst h <;>
    simp [Row.event, MicroOp.event] at he
  rfl

/-! ### What such rows leave -/

/-- A row that neither draws nor counts leaves BUF, idx, the environment, tmp and the failure record. -/
theorem Row.engine_quiet (h : r.Quiet) (e : EngineId) :
    (r.engine e x).buf = x.buf ∧ (r.engine e x).idx = x.idx ∧ (r.engine e x).env = x.env ∧
      (r.engine e x).tmp = x.tmp ∧ (r.engine e x).fail = x.fail := by
  obtain ⟨hc, ⟨ev, next, hop⟩ | ⟨res, init, hop⟩⟩ := h <;>
    simp [Row.engine, Row.after_eq, Row.before_eq, hc, hop, MicroOp.engine]

/-- A row outside the payload loops leaves BUF and idx. -/
theorem Row.engine_unindexed (hc : r.clearIdx = false) (h : r.op.indexed = false) (e : EngineId) :
    (r.engine e x).buf = x.buf ∧ (r.engine e x).idx = x.idx := by
  refine ⟨r.engine_buf e x fun ev again done hop => by simp [hop, MicroOp.indexed] at h, ?_⟩
  simp only [Row.engine, Row.after_eq, Row.before_eq, hc, Bool.false_eq_true, if_false]
  cases hop : r.op <;> simp only [hop, MicroOp.indexed, reduceCtorEq] at h <;> simp only [MicroOp.engine] <;>
    (try split) <;> simp [Engine.polled, Engine.received]

/-- INIT after a row. -/
theorem Row.engine_init (h : ∀ res, r.op ≠ .finish res true) (e : EngineId) :
    (r.engine e x).status.init = x.status.init := by
  cases hfin : r.op.finishes
  · exact (r.engine_unfinished e x hfin).2.2.2
  · rw [Row.engine, Row.after_eq, Row.before_eq]
    cases hop : r.op <;> simp only [hop, MicroOp.finishes, reduceCtorEq] at hfin
    case finish res init =>
      cases init
      · simp [MicroOp.engine]
      · exact absurd hop (h res)
    case finishDrawn => simp [MicroOp.engine]

end

/-! ### What one step of a command leaves of its engine -/

section
variable {i : Instr} {x y : Engine} {o : Option Event}

theorem ExecMove.bufEpoch (h : ExecMove i x o y) : y.bufEpoch = x.bufEpoch := by
  cases h with
  | accepted idle wf => simp
  | rejected idle wf => rfl
  | ran r label row inBuf => exact (r.engine_sameCommand i.engine x).bufEpoch

/-- Past IDLE a command changes nothing of what acceptance wrote. -/
theorem ExecMove.sameCommand (h : ExecMove i x o y) (hx : x.mpc ≠ .idle) : x.SameCommand y := by
  cases h with
  | accepted idle wf => exact absurd idle hx
  | rejected idle wf => exact absurd idle hx
  | ran r label row inBuf => exact r.engine_sameCommand i.engine x

/-- CSDRV changes at SI2, B0, B17 and BF0 alone, all of them SPIE's. -/
theorem ExecMove.csdrv (h : ExecMove i x o y)
    (hx : ¬ (labelOpcode x.mpc = some i.opcode ∧ (x.mpc = .si2 ∨ x.mpc = .b0 ∨ x.mpc = .b17 ∨ x.mpc = .bf0))) :
    y.status.csdrv = x.status.csdrv ∧ ∀ c : CsLevel, c.after o = c := by
  cases h with
  | accepted idle wf => exact ⟨by simp, fun _ => rfl⟩
  | rejected idle wf => exact ⟨rfl, fun _ => rfl⟩
  | ran r label row inBuf =>
    have hnone : r.csdrv = none := by
      by_contra hcs
      exact hx ⟨label, Engine.row_csdrv row hcs⟩
    rw [Row.engine_csdrv, hnone]
    exact ⟨rfl, fun c => (Engine.row_cs row i.engine c).1 hnone⟩

/-- Every byte of BUF but BUF[idx] at RD6 and B16 stays. -/
theorem ExecMove.bufByte (h : ExecMove i x o y) (e : EngineId) {k : Nat}
    (hk : ¬ (labelOpcode x.mpc = some i.opcode ∧ (x.mpc = .rd6 ∨ x.mpc = .b16) ∧ k = x.idx.toNat)) :
    y.bufByte e k = x.bufByte e k := by
  have hepoch := h.bufEpoch
  cases h with
  | accepted idle wf => exact Engine.bufByte_congr e k (by simp) hepoch
  | rejected idle wf => rfl
  | ran r label row inBuf =>
    by_cases hop : ∃ ev again done, r.op = .store ev again done
    · obtain ⟨ev, again, done, hop⟩ := hop
      have hne : k ≠ x.idx.toNat := fun hkeq => hk ⟨label, Engine.row_store row hop, hkeq⟩
      unfold Engine.bufByte
      rw [hepoch, r.engine_buf_store _ x hop, Memory.read?_write_ne _ _ hne]
    · exact Engine.bufByte_congr e k (r.engine_buf _ x fun ev again done h' => hop ⟨ev, again, done, h'⟩) hepoch

/-- RESULT, VALID and INIT change at a FINISH label alone. -/
theorem ExecMove.unfinished (h : ExecMove i x o y) (hx : finishesAt x.mpc = false) :
    y.result = x.result ∧ y.status.valid = x.status.valid ∧ y.status.init = x.status.init := by
  cases h with
  | accepted idle wf => simp
  | rejected idle wf => exact ⟨rfl, rfl, rfl⟩
  | ran r label row inBuf =>
    have hfin : r.op.finishes = false := by
      by_contra hfin
      have := (Engine.row_fits row).finishesAt (by simpa using hfin)
      simp [hx] at this
    obtain ⟨hresult, _, hvalid, hinit⟩ := r.engine_unfinished i.engine x hfin
    exact ⟨hresult, hvalid, hinit⟩

/-- No command but the two INIT commands changes INIT or emits a configuration event (10_state R27). -/
theorem ExecMove.of_transaction (h : ExecMove i x o y) (h1 : i.opcode ≠ 0x1) (h9 : i.opcode ≠ 0x9) :
    y.status.init = x.status.init ∧ ∀ ev, o = some ev → ev.configures = false := by
  cases h with
  | accepted idle wf => simp
  | rejected idle wf => simp
  | ran r label row inBuf =>
    have hnot : ¬ (labelOpcode x.mpc = some 0x1 ∨ labelOpcode x.mpc = some 0x9) := by
      rw [label]
      rintro (h | h)
      · exact h1 (Option.some.inj h)
      · exact h9 (Option.some.inj h)
    refine ⟨Row.engine_init (fun res hop => hnot (Engine.row_init row hop)) i.engine, fun ev hev => ?_⟩
    by_contra hc
    exact hnot ((Engine.row_configures row hev).1 (by simpa using hc))

/-- An INIT command leaves BUF, idx, the environment, tmp and the failure record, and emits configuration events and
CS_HIGH alone. -/
theorem ExecMove.of_init (h : ExecMove i x o y) (hi : i.opcode = 0x1 ∨ i.opcode = 0x9) :
    (y.buf = x.buf ∧ y.idx = x.idx ∧ y.env = x.env ∧ y.tmp = x.tmp ∧ y.fail = x.fail) ∧
      ∀ ev, o = some ev → ev.configures = true ∨ ev = .csHigh := by
  cases h with
  | accepted idle wf => simp
  | rejected idle wf => simp
  | ran r label row inBuf =>
    have hl : labelOpcode x.mpc = some 0x1 ∨ labelOpcode x.mpc = some 0x9 := by simpa [label] using hi
    exact ⟨Row.engine_quiet (Engine.row_quiet row hl) i.engine, fun ev hev => (Engine.row_configures row hev).2 hl⟩

/-- SPI_INIT and the two exchanges leave BUF and idx. -/
theorem ExecMove.unindexed (h : ExecMove i x o y) (hi : i.opcode = 0x9 ∨ i.opcode = 0xA ∨ i.opcode = 0xB) :
    y.buf = x.buf ∧ y.idx = x.idx := by
  cases h with
  | accepted idle wf => simp
  | rejected idle wf => exact ⟨rfl, rfl⟩
  | ran r label row inBuf =>
    obtain ⟨hc, hop⟩ := Engine.row_unindexed row (by simpa [label] using hi)
    exact Row.engine_unindexed hc hop i.engine

/-- SPI_INIT and SPI_BURST leave RDATA (40_sequencer R116). -/
theorem ExecMove.rdata (h : ExecMove i x o y) (hi : i.opcode = 0x9 ∨ i.opcode = 0xC) :
    y.result.rdata = x.result.rdata := by
  cases h with
  | accepted idle wf => simp
  | rejected idle wf => rfl
  | ran r label row inBuf => exact Engine.row_rdata row (by simpa [label] using hi) i.engine

/-- No command but I2C_READ receives over I2C. -/
theorem ExecMove.not_i2cRx (h : ExecMove i x o y) (hi : i.opcode ≠ 0x2) (v : Byte) : o ≠ some (.i2cRx v) := by
  cases h with
  | accepted idle wf => simp
  | rejected idle wf => simp
  | ran r label row inBuf =>
    intro he
    have hl := Engine.row_i2cRx row he
    rw [label] at hl
    exact hi (Option.some.inj hl)

end

/-! ### What an event leaves of a peripheral -/

section
variable (s : State) (ev : Event)

/-- Of ISR an event changes the four polled flags at most (log 31). -/
theorem applyEvent_isr :
    (s.applyEvent ev).i2cPer.isr =
      { s.i2cPer.isr with
        txis := (s.applyEvent ev).i2cPer.isr.txis, tc := (s.applyEvent ev).i2cPer.isr.tc
        rxne := (s.applyEvent ev).i2cPer.isr.rxne, stopf := (s.applyEvent ev).i2cPer.isr.stopf } := by
  cases ev with
  | i2cPoll f v => cases f <;> rfl
  | _ => rfl

/-- Of SR an event changes the two polled flags at most (log 31), and CR2's other bits never. -/
theorem applyEvent_sr :
    (s.applyEvent ev).spiPer.sr =
        { s.spiPer.sr with
          txe := (s.applyEvent ev).spiPer.sr.txe, rxne := (s.applyEvent ev).spiPer.sr.rxne } ∧
      (s.applyEvent ev).spiPer.cr2Other = s.spiPer.cr2Other := by
  cases ev with
  | spiPoll f v => cases f <;> exact ⟨rfl, rfl⟩
  | _ => exact ⟨rfl, rfl⟩

/-- An event leaves the host's side. -/
theorem observed_host (o : Option Event) :
    (s.observed o).hostOps = s.hostOps ∧ (s.observed o).hostRead = s.hostRead ∧ (s.observed o).turns = s.turns ∧
      (s.observed o).tick = s.tick := by
  cases o <;> simp [State.observed]

end

/-- The opcodes of each engine (30_encoding R95). -/
theorem opcode_of_i2ce {i : Instr} (h : i.engine = .i2ce) : i.opcode = 0x1 ∨ i.opcode = 0x2 ∨ i.opcode = 0x3 := by
  cases i <;> simp [Instr.engine] at h <;> simp [Instr.opcode]

theorem opcode_of_spie {i : Instr} (h : i.engine = .spie) :
    i.opcode = 0x9 ∨ i.opcode = 0xA ∨ i.opcode = 0xB ∨ i.opcode = 0xC := by
  cases i <;> simp [Instr.engine] at h <;> simp [Instr.opcode]

/-- Settles O30: one move of I2CE, by its row, and the event it emits. -/
theorem i2cCommandFrame : Obligations.I2cCommandFrame := by
  intro i s t hi h
  obtain ⟨o, y, hmove, rfl⟩ := exec_next_iff.1 h
  rw [hi] at hmove ⊢
  have hothers := Agree.of_observed (e := .i2ce) (e' := .spie) (by simp) s (o := o)
    fun ev hev => by subst hev; rw [hmove.event_owner, hi]
  obtain ⟨hops, hread, hturns, htick⟩ := observed_host s o
  have hop := opcode_of_i2ce hi
  have hnot9 : i.opcode ≠ 0x9 := by obtain h1 | h2 | h3 := hop <;> simp [*]
  have hlabel : ∀ l, labelOpcode l = some i.opcode → ¬ (l = .si2 ∨ l = .b0 ∨ l = .b17 ∨ l = .bf0) := by
    rintro l hl (rfl | rfl | rfl | rfl) <;> obtain h1 | h2 | h3 := hop <;> simp [labelOpcode, *] at hl
  simp only [State.engine_i2ce] at hmove
  simp only [State.setEngine_i2ce_i2c, State.setEngine_i2ce_spi, State.setEngine_i2ce_spiPer,
    State.setEngine_i2ce_cs, State.setEngine_i2ce_hostOps, State.setEngine_i2ce_hostRead, State.setEngine_i2ce_turns,
    State.setEngine_i2ce_tick, State.setEngine_i2ce_i2cPer]
  refine ⟨hothers.engine, hothers.spiPer rfl, hothers.cs rfl, hops, hread, hturns, htick, hmove.bufEpoch,
    (hmove.csdrv fun hc => hlabel _ hc.1 hc.2).1, fun k hk => hmove.bufByte .i2ce ?_, fun hx => ?_, hmove.unfinished,
    fun h1 => ?_, fun h2 => ?_, ?_, fun h1 => ?_⟩
  · rintro ⟨hl, hm | hm, hidx⟩
    · exact hk ⟨by simpa [hm, labelOpcode] using hl.symm, hm, hidx⟩
    · obtain h1 | h2 | h3 := hop <;> simp [labelOpcode, *] at hl
  · obtain ⟨hcmd, hlatch, hfaults, hrej, hcontested, _⟩ := hmove.sameCommand hx
    exact ⟨hcmd, hlatch, hfaults, hrej, hcontested⟩
  · obtain ⟨hinit, hev⟩ := hmove.of_transaction h1 hnot9
    refine ⟨hinit, ?_⟩
    cases o with
    | none => simp [State.observed]
    | some ev =>
      have hc := hev ev rfl
      cases ev <;> simp only [Event.configures, reduceCtorEq] at hc <;> simp [State.observed]
  · cases o with
    | none => rfl
    | some ev =>
      have hrx := hmove.not_i2cRx h2
      cases ev <;> first | rfl | exact absurd rfl (hrx _)
  · cases o with
    | none => rfl
    | some ev => exact applyEvent_isr s ev
  · obtain ⟨⟨hbuf, hidx, henv, htmp, hfail⟩, hev⟩ := hmove.of_init (.inl h1)
    refine ⟨hbuf, hidx, henv, htmp, hfail, ?_⟩
    cases o with
    | none => simp [State.observed]
    | some ev => cases ev <;> simp [Event.configures] at hev <;> simp [State.observed]

/-- Settles O31: one move of SPIE, by its row, and the event it emits. -/
theorem spiCommandFrame : Obligations.SpiCommandFrame := by
  intro i s t hi h
  obtain ⟨o, y, hmove, rfl⟩ := exec_next_iff.1 h
  rw [hi] at hmove ⊢
  have hothers := Agree.of_observed (e := .spie) (e' := .i2ce) (by simp) s (o := o)
    fun ev hev => by subst hev; rw [hmove.event_owner, hi]
  obtain ⟨hops, hread, hturns, htick⟩ := observed_host s o
  have hop := opcode_of_spie hi
  have hnot1 : i.opcode ≠ 0x1 := by obtain h9 | hA | hB | hC := hop <;> simp [*]
  simp only [State.engine_spie] at hmove
  simp only [State.setEngine_spie_spi, State.setEngine_spie_i2c, State.setEngine_spie_i2cPer,
    State.setEngine_spie_cs, State.setEngine_spie_hostOps, State.setEngine_spie_hostRead, State.setEngine_spie_turns,
    State.setEngine_spie_tick, State.setEngine_spie_spiPer]
  refine ⟨hothers.engine, hothers.i2cPer rfl, hops, hread, hturns, htick, hmove.bufEpoch,
    fun k hk => hmove.bufByte .spie ?_, fun hcs => ?_, fun hx => ?_, hmove.unfinished, fun h9 => ?_, ?_, ?_,
    hmove.rdata, fun hC => hmove.unindexed ?_, fun h9 => ?_⟩
  · rintro ⟨hl, hm | hm, hidx⟩
    · obtain h9 | hA | hB | hC := hop <;> simp [labelOpcode, *] at hl
    · exact hk ⟨by simpa [hm, labelOpcode] using hl.symm, hm, hidx⟩
  · have hkeeps := hmove.csdrv fun hc => by
      obtain ⟨hl, hm | hm | hm | hm⟩ := hc <;> simp [hm, labelOpcode] at hl <;> simp [hm, ← hl] at hcs
    exact ⟨by rw [State.observed_cs]; exact hkeeps.2 s.cs, hkeeps.1⟩
  · obtain ⟨hcmd, hlatch, hfaults, hrej, hcontested, _⟩ := hmove.sameCommand hx
    exact ⟨hcmd, hlatch, hfaults, hrej, hcontested⟩
  · obtain ⟨hinit, hev⟩ := hmove.of_transaction hnot1 h9
    refine ⟨hinit, ?_⟩
    cases o with
    | none => simp [State.observed]
    | some ev =>
      have hc := hev ev rfl
      cases ev <;> simp only [Event.configures, reduceCtorEq] at hc <;> simp [State.observed]
  · cases o with
    | none => rfl
    | some ev => exact (applyEvent_sr s ev).2
  · cases o with
    | none => rfl
    | some ev => exact (applyEvent_sr s ev).1
  · obtain h9 | hA | hB | hC' := hop
    · exact .inl h9
    · exact .inr (.inl hA)
    · exact .inr (.inr hB)
    · exact absurd hC' hC
  · obtain ⟨⟨_, _, henv, htmp, hfail⟩, hev⟩ := hmove.of_init (.inr h9)
    refine ⟨?_, henv, htmp, hfail, ?_⟩ <;>
      · cases o with
        | none => simp [State.observed]
        | some ev => cases ev <;> simp [Event.configures] at hev <;> simp [State.observed]

end Sys2Proof.Machine
end

section
/-! What each event of a command's step leaves in the named fields (O57). -/

namespace Sys2Proof.Machine

section
variable {i : Instr} {s : State} {r : Row} {l : Label}

/-- At a label of its micro-program a command steps to what the row of that label leaves; a payload row needs its byte in
BUF. -/
theorem exec_next_of_row (hm : (s.engine i.engine).mpc = l) (hl : labelOpcode l = some i.opcode)
    (hr : (s.engine i.engine).row = some r)
    (hin : r.op.indexed = true → (s.engine i.engine).idx.toNat < Config.bufSize) :
    exec i s = .next ((s.observed (r.event i.engine (s.engine i.engine))).setEngine i.engine
      (r.engine i.engine (s.engine i.engine))) :=
  exec_next_iff.2 ⟨_, _, .ran r (by rw [hm]; exact hl) hr hin, rfl⟩

/-- What a row leaves in the I2C peripheral is what its event leaves there. -/
theorem stepsTo_i2cPer {p : I2cPeripheral} (hm : s.i2c.mpc = l) (hi : i.engine = .i2ce)
    (hl : labelOpcode l = some i.opcode) (hr : s.i2c.row = some r)
    (hin : r.op.indexed = true → s.i2c.idx.toNat < Config.bufSize)
    (h : (s.observed (r.event .i2ce s.i2c)).i2cPer = p) : StepsTo i s fun t => t.i2cPer = p := by
  have hexec := exec_next_of_row (i := i) (s := s) (r := r) (l := l)
  rw [hi] at hexec
  exact ⟨_, hexec hm hl hr hin, h⟩

/-- What a row leaves in the SPI peripheral and on the CS line is what its event leaves there. -/
theorem stepsTo_spiPer_cs {p : SpiPeripheral} {c : CsLevel} (hm : s.spi.mpc = l) (hi : i.engine = .spie)
    (hl : labelOpcode l = some i.opcode) (hr : s.spi.row = some r)
    (hin : r.op.indexed = true → s.spi.idx.toNat < Config.bufSize)
    (h : (s.observed (r.event .spie s.spi)).spiPer = p) (hc : (s.observed (r.event .spie s.spi)).cs = c) :
    StepsTo i s fun t => t.spiPer = p ∧ t.cs = c := by
  have hexec := exec_next_of_row (i := i) (s := s) (r := r) (l := l)
  rw [hi] at hexec
  exact ⟨_, hexec hm hl hr hin, h, hc⟩

theorem stepsTo_spiPer {p : SpiPeripheral} (hm : s.spi.mpc = l) (hi : i.engine = .spie)
    (hl : labelOpcode l = some i.opcode) (hr : s.spi.row = some r)
    (hin : r.op.indexed = true → s.spi.idx.toNat < Config.bufSize)
    (h : (s.observed (r.event .spie s.spi)).spiPer = p) : StepsTo i s fun t => t.spiPer = p := by
  obtain ⟨t, ht, hp, _⟩ := stepsTo_spiPer_cs hm hi hl hr hin h rfl
  exact ⟨t, ht, hp⟩

end

/-- A row that does not index BUF needs no byte of it. -/
theorem unindexed_inBuf {op : MicroOp} {q : Prop} (h : op.indexed = false) : op.indexed = true → q := by
  simp [h]

/-- N + 1 fits its 8 bits as far as it goes on the wire (10_state R43). -/
theorem writeLength_eq (n : BitVec 8) : writeLength n = n + 1 := by
  apply BitVec.eq_of_toNat_eq
  simp only [writeLength, BitVec.toNat_setWidth, BitVec.toNat_add, BitVec.toNat_ofNat]
  simp

/-- The low byte, and the low half, of a value. -/
theorem setWidth_eq_lowByte {w : Nat} (v : BitVec w) : v.setWidth 8 = v.extractLsb' 0 8 := by
  ext k
  simp

theorem setWidth_eq_lowHalf (v : BitVec 32) : v.setWidth 16 = v.extractLsb' 0 16 := by
  ext k
  simp

/-- A received byte of I2C_READ reaches RXDATA, one of SPI_BURST the read side of DR; both rows need their byte of BUF. -/
theorem stepsTo_rd6 (dev : BitVec 7) (reg n : BitVec 8) {s : State} {v : BitVec 32} {env : Environment}
    (hm : s.i2c.mpc = .rd6) (hidx : s.i2c.idx.toNat < 256) (hv : s.i2c.env.drawValue .i2ce = (v, env)) :
    StepsTo (.i2cRead dev reg n) s fun t => t.i2cPer = { s.i2cPer with rxdata := v.extractLsb' 0 8 } := by
  refine stepsTo_i2cPer hm rfl rfl (by rw [Engine.row, hm]) (fun _ => hidx) ?_
  simp [Row.event, Row.before, MicroOp.event, State.observed, hv, setWidth_eq_lowByte]

theorem stepsTo_b16 (reg n : BitVec 8) {s : State} {v : BitVec 32} {env : Environment}
    (hm : s.spi.mpc = .b16) (hidx : s.spi.idx.toNat < 256) (hv : s.spi.env.drawValue .spie = (v, env)) :
    StepsTo (.spiBurst reg n) s fun t => t.spiPer = { s.spiPer with drRx := (v.extractLsb' 0 8).setWidth 16 } := by
  refine stepsTo_spiPer hm rfl rfl (by rw [Engine.row, hm]) (fun _ => hidx) ?_
  simp [Row.event, Row.before, MicroOp.event, State.observed, hv, setWidth_eq_lowByte]

/-- A received byte that SPI_SR8 keeps or SPI_BURST discards reaches the read side of DR. -/
theorem stepsTo_received_byte {i : Instr} {s : State} {l next : Label} {c : Bool} {v : BitVec 32} {env : Environment}
    (hm : s.spi.mpc = l) (hi : i.engine = .spie) (hl : labelOpcode l = some i.opcode)
    (hr : s.spi.row = some ⟨none, .receive cutByte (fun t => .spiRx8 (t.setWidth 8)) next, c, none⟩)
    (hv : s.spi.env.drawValue .spie = (v, env)) :
    StepsTo i s fun t => t.spiPer = { s.spiPer with drRx := (v.extractLsb' 0 8).setWidth 16 } := by
  refine stepsTo_spiPer hm hi hl hr (unindexed_inBuf rfl) ?_
  simp [Row.event, Row.before, MicroOp.event, State.observed, hv, setWidth_eq_lowByte]

/-- A payload byte nobody contests is BUF[idx] (41_i2c R142). -/
theorem stepsTo_wr4 (dev : BitVec 7) (reg n : BitVec 8) {s : State}
    (hm : s.i2c.mpc = .wr4) (hidx : s.i2c.idx.toNat < 256) (hc : s.i2c.contested = []) :
    StepsTo (.i2cWrite dev reg n) s fun t =>
      t.i2cPer = { s.i2cPer with txdata := s.i2c.bufByte .i2ce s.i2c.idx.toNat } := by
  refine stepsTo_i2cPer hm rfl rfl (by rw [Engine.row, hm]) (fun _ => hidx) ?_
  simp [Row.event, Row.before, MicroOp.event, State.observed, payloadByte_uncontested hc]

/-- A polled I2C flag is left as the poll saw it (10_state R44, log 31). -/
theorem stepsTo_i2cPoll {i : Instr} {s : State} {l next failLabel : Label} {f : I2cFlag} {site : Site} {res : BitVec 8}
    {v : Bool} {env : Environment} (hm : s.i2c.mpc = l) (hi : i.engine = .i2ce) (hl : labelOpcode l = some i.opcode)
    (hr : s.i2c.row = some (.plain (.await (.i2cPoll f) site res next failLabel)))
    (hv : s.i2c.env.drawFlag .i2ce = (v, env))
    {st : I2cStatus} (hst : s.i2cPer.isr.observe f v = st) :
    StepsTo i s fun t => t.i2cPer = { s.i2cPer with isr := st } := by
  refine stepsTo_i2cPer hm hi hl hr (unindexed_inBuf rfl) ?_
  simp [Row.event, Row.before, MicroOp.event, State.observed, hv, hst]

/-- A polled SPI flag of a wait that sets the phase is left as the poll saw it (10_state R51, log 31). -/
theorem stepsTo_spiPoll {i : Instr} {s : State} {l next failLabel : Label} {p : Phase} {f : SpiFlag} {site : Site}
    {res : BitVec 8} {v : Bool} {env : Environment} (hm : s.spi.mpc = l) (hi : i.engine = .spie)
    (hl : labelOpcode l = some i.opcode)
    (hr : s.spi.row = some (.inPhase p (.await (.spiPoll f) site res next failLabel)))
    (hv : s.spi.env.drawFlag .spie = (v, env))
    {st : SpiStatus} (hst : s.spiPer.sr.observe f v = st) :
    StepsTo i s fun t => t.spiPer = { s.spiPer with sr := st } := by
  refine stepsTo_spiPer hm hi hl hr (unindexed_inBuf rfl) ?_
  simp [Row.event, Row.before, MicroOp.event, State.observed, hv, hst]

/-- Settles O57: at each label the row of the table, and the event it emits. -/
theorem eventsWriteTheirFields : Obligations.EventsWriteTheirFields := by
  refine ⟨fun s => ⟨fun h => ?_, fun h => ?_, fun h => ?_, fun h => ?_⟩,
    fun dev reg n s v b env => ⟨fun h => ?_, fun h => ?_, fun h => ?_, fun h hidx hv => ?_, fun h => ?_, fun h => ?_,
      fun hv => ⟨fun h => ?_, fun h => ?_, fun h => ?_, fun h => ?_⟩, fun h => ?_, fun h => ?_, fun h hidx hc => ?_⟩,
    fun s => ⟨fun h => ?_, fun h => ?_, fun h => ?_, fun h => ?_⟩,
    fun data8 reg n data16 s v b env => ⟨fun h => ?_, fun h => ?_, fun h => ?_, fun h => ?_,
      fun hv => ⟨fun h => ?_, fun h => ?_, fun h => ?_⟩, fun hv => ⟨fun h => ?_, fun h => ?_⟩, fun h => ?_,
      fun h => ?_⟩⟩
  -- I2C_INIT
  · exact stepsTo_i2cPer h rfl rfl (by rw [Engine.row, h]) (unindexed_inBuf rfl) rfl
  · exact stepsTo_i2cPer h rfl rfl (by rw [Engine.row, h]) (unindexed_inBuf rfl) rfl
  · exact stepsTo_i2cPer h rfl rfl (by rw [Engine.row, h]) (unindexed_inBuf rfl) rfl
  · exact stepsTo_i2cPer h rfl rfl (by rw [Engine.row, h]) (unindexed_inBuf rfl) rfl
  -- I2C_READ
  · exact stepsTo_i2cPer h rfl rfl (by rw [Engine.row, h]) (unindexed_inBuf rfl) rfl
  · exact stepsTo_i2cPer h rfl rfl (by rw [Engine.row, h]) (unindexed_inBuf rfl) rfl
  · exact stepsTo_i2cPer h rfl rfl (by rw [Engine.row, h]) (unindexed_inBuf rfl) rfl
  · exact stepsTo_rd6 dev reg n h hidx hv
  · exact stepsTo_i2cPer h rfl rfl (by rw [Engine.row, h]) (unindexed_inBuf rfl) rfl
  · exact stepsTo_i2cPer h rfl rfl (by rw [Engine.row, h]) (unindexed_inBuf rfl) rfl
  · exact stepsTo_i2cPoll h rfl rfl (by rw [Engine.row, h]) hv rfl
  · exact stepsTo_i2cPoll h rfl rfl (by rw [Engine.row, h]) hv rfl
  · exact stepsTo_i2cPoll h rfl rfl (by rw [Engine.row, h]) hv rfl
  · exact stepsTo_i2cPoll h rfl rfl (by rw [Engine.row, h]) hv rfl
  -- I2C_WRITE
  · rw [← writeLength_eq]
    exact stepsTo_i2cPer h rfl rfl (by rw [Engine.row, h]) (unindexed_inBuf rfl) rfl
  · exact stepsTo_i2cPer h rfl rfl (by rw [Engine.row, h]) (unindexed_inBuf rfl) rfl
  · exact stepsTo_wr4 dev reg n h hidx hc
  -- SPI_INIT
  · exact stepsTo_spiPer_cs h rfl rfl (by rw [Engine.row, h]) (unindexed_inBuf rfl) rfl rfl
  · obtain ⟨t, ht, hper, hcs⟩ :=
      stepsTo_spiPer_cs h rfl (i := .spiInit) rfl (by rw [Engine.row, h]) (unindexed_inBuf rfl) rfl rfl
    exact ⟨t, ht, hcs, hper⟩
  · exact stepsTo_spiPer_cs h rfl rfl (by rw [Engine.row, h]) (unindexed_inBuf rfl) rfl rfl
  · exact stepsTo_spiPer_cs h rfl rfl (by rw [Engine.row, h]) (unindexed_inBuf rfl) rfl rfl
  -- SPI_SR8, SPI_SR16 and SPI_BURST
  · rw [← setWidth_eq_lowByte]
    exact stepsTo_spiPer h rfl rfl (by rw [Engine.row, h]) (unindexed_inBuf rfl) rfl
  · exact stepsTo_spiPer h rfl rfl (by rw [Engine.row, h]) (unindexed_inBuf rfl) rfl
  · exact stepsTo_spiPer h rfl rfl (by rw [Engine.row, h]) (unindexed_inBuf rfl) rfl
  · obtain h | h | h := h <;>
      exact stepsTo_spiPer h rfl rfl (by rw [Engine.row, h]) (unindexed_inBuf rfl) rfl
  · exact stepsTo_received_byte h rfl rfl (by rw [Engine.row, h]) hv
  · refine stepsTo_spiPer h rfl rfl (by rw [Engine.row, h]) (unindexed_inBuf rfl) ?_
    simp [Row.event, Row.before, MicroOp.event, State.observed, hv, setWidth_eq_lowHalf]
  · obtain h | h | h | ⟨h, hidx⟩ := h
    · exact stepsTo_received_byte h rfl rfl (by rw [Engine.row, h]) hv
    · exact stepsTo_received_byte h rfl rfl (by rw [Engine.row, h]) hv
    · exact stepsTo_received_byte h rfl rfl (by rw [Engine.row, h]) hv
    · exact stepsTo_b16 reg n h hidx hv
  · exact stepsTo_spiPoll h rfl rfl (by rw [Engine.row, h]) hv rfl
  · exact stepsTo_spiPoll h rfl rfl (by rw [Engine.row, h]) hv rfl
  · exact stepsTo_spiPer_cs h rfl rfl (by rw [Engine.row, h]) (unindexed_inBuf rfl) rfl rfl
  · obtain h | h := h <;>
      exact stepsTo_spiPer_cs h rfl rfl (by rw [Engine.row, h]) (unindexed_inBuf rfl) rfl rfl

end Sys2Proof.Machine
end

section
/-! Runs of one command: an induction over the rows that a run takes. -/

namespace Sys2Proof.Machine

/-- What every state within the run of the command `i` has of its engine `x`: `x₀` is the engine that took the command,
`evs` the events since. -/
structure WithinRun (i : Instr) (x₀ : Engine) (evs : List Event) (x : Engine) : Prop where
  cmdWhileBusy : x.faults.cmdWhileBusy = false
  latch : x.latch = latchOperands i x₀.latch
  trace : x.trace = x₀.trace ++ evs
  busy : x.status.busy = true → labelOpcode x.mpc = some i.opcode
  idle : x.status.busy = false → x.mpc = .idle

section
variable {i : Instr} {x₀ x : Engine} {evs : List Event}

/-- A ready engine that accepts a command runs it from its first label. -/
theorem WithinRun.accepted (h : x₀.ReadyFor i) : WithinRun i x₀ [] (x₀.accept i (firstRow i).1) := by
  obtain ⟨hfaults, _, hinit⟩ := h
  refine ⟨?_, by simp, by simp, fun _ => by simpa using (firstRow_label i).1, fun hb => by simp at hb⟩
  have hnone : (i.isTransaction && !x₀.status.init) = false := by simpa using hinit
  simp [hnone, hfaults, FaultSet.empty]

/-- A row of the command goes on with its run, or ends it. -/
theorem WithinRun.row {r : Row} (h : WithinRun i x₀ evs x) (hlabel : labelOpcode x.mpc = some i.opcode)
    (hrow : x.row = some r) (e : EngineId) : WithinRun i x₀ (evs ++ (r.event e x).toList) (r.engine e x) := by
  have hsame := r.engine_sameCommand e x
  refine ⟨by rw [hsame.faults, h.cmdWhileBusy], by rw [hsame.latch, h.latch],
    by rw [r.engine_trace, h.trace, List.append_assoc], fun hb => ?_, fun hb => ?_⟩ <;> cases hfin : r.op.finishes
  · rw [(Row.leadsTo_engine (Engine.row_fits hrow) hfin).1, hlabel]
  · rw [(r.engine_finished e x hfin).1] at hb
    cases hb
  · rw [(r.engine_unfinished e x hfin).2.1] at hb
    rw [h.idle hb] at hlabel
    cases hlabel
  · exact (r.engine_finished e x hfin).2.2.1

/-- While a run lasts, a turn of the sequencer is a step of its command (40_sequencer R111). -/
theorem WithinRun.turn {s : State} (h : WithinRun i x₀ evs (s.engine i.engine))
    (hb : (s.engine i.engine).status.busy = true) : sequencerTurn i.engine s = exec i s := by
  have hrun : runningCommand i.engine (s.engine i.engine).latch = some i := by
    rw [h.latch]
    exact runningCommand_latchOperands i x₀.latch
  simp [sequencerTurn, h.cmdWhileBusy, hb, hrun]

/-- At IDLE a run has ended. -/
theorem WithinRun.ended (h : WithinRun i x₀ evs x) (hidle : x.mpc = .idle) : x.status.busy = false := by
  by_contra hb
  have hlabel := h.busy (by simpa using hb)
  rw [hidle] at hlabel
  cases hlabel

/-- Where a run has ended, a turn of the sequencer changes nothing. -/
theorem WithinRun.turn_ended {s : State} (h : WithinRun i x₀ evs (s.engine i.engine))
    (hb : (s.engine i.engine).status.busy = false) : sequencerTurn i.engine s = .next s := by
  simp [sequencerTurn, h.cmdWhileBusy, hb]

end

/-- The state after a row of the engine `e`. -/
abbrev State.afterRow (s : State) (e : EngineId) (r : Row) : State :=
  (s.observed (r.event e (s.engine e))).setEngine e (r.engine e (s.engine e))

/-- `P`, of the events since the start and the state, is kept by each row that a run of `i` takes. -/
def KeptByRows (i : Instr) (x₀ : Engine) (P : List Event → State → Prop) : Prop :=
  ∀ evs s r, P evs s → WithinRun i x₀ evs (s.engine i.engine) → labelOpcode (s.engine i.engine).mpc = some i.opcode →
    (s.engine i.engine).row = some r →
    P (evs ++ (r.event i.engine (s.engine i.engine)).toList) (s.afterRow i.engine r)

section
variable {i : Instr} {x₀ : Engine} {P : List Event → State → Prop}

/-- A turn within a run takes a row, or finds the run ended. -/
theorem WithinRun.turn_next {evs : List Event} {s t : State} (h : WithinRun i x₀ evs (s.engine i.engine))
    (hturn : sequencerTurn i.engine s = .next t) :
    t = s ∨ ∃ r, labelOpcode (s.engine i.engine).mpc = some i.opcode ∧ (s.engine i.engine).row = some r ∧
      t = s.afterRow i.engine r := by
  cases hb : (s.engine i.engine).status.busy
  · rw [h.turn_ended hb] at hturn
    exact .inl (by simpa using hturn.symm)
  · have hlabel := h.busy hb
    rw [h.turn hb, exec_next_iff] at hturn
    obtain ⟨_, _, hmove, rfl⟩ := hturn
    cases hmove with
    | accepted idle wf => simp [idle, labelOpcode] at hlabel
    | rejected idle wf => simp [idle, labelOpcode] at hlabel
    | ran r label row inBuf => exact .inr ⟨r, label, row, rfl⟩

theorem sequencerRun_induction (hstep : KeptByRows i x₀ P) {k : Nat} {evs : List Event} {s t : State} (hs : P evs s)
    (hruns : WithinRun i x₀ evs (s.engine i.engine)) (h : sequencerRun i.engine k s = .next t) :
    ∃ evs', P evs' t ∧ WithinRun i x₀ evs' (t.engine i.engine) := by
  induction k generalizing evs s with
  | zero =>
    simp only [sequencerRun, Host.Outcome.next.injEq] at h
    subst h
    exact ⟨evs, hs, hruns⟩
  | succ k ih =>
    simp only [sequencerRun] at h
    split at h
    case h_1 u hturn =>
      obtain rfl | ⟨r, hlabel, hrow, rfl⟩ := hruns.turn_next hturn
      · exact ih hs hruns h
      · refine ih (hstep evs s r hs hruns hlabel hrow) ?_ h
        rw [State.engine_setEngine]
        exact hruns.row hlabel hrow _
    all_goals cases h

/-- What holds when a command is accepted, and is kept by each of its rows, holds of the events and the state with which
its run ends. -/
theorem CommandEnded.induction {s t : State} (h : CommandEnded i s t)
    (hstart : P [] (s.setEngine i.engine ((s.engine i.engine).accept i (firstRow i).1)))
    (hstep : KeptByRows i (s.engine i.engine) P) :
    P (newEvents i.engine s t) t ∧ (t.engine i.engine).mpc = .idle := by
  obtain ⟨hready, hwf, k, hrun, hended⟩ := h
  have hidle : (s.engine i.engine).mpc = .idle := hready.2.1.2
  have hexec : exec i s = .next (s.setEngine i.engine ((s.engine i.engine).accept i (firstRow i).1)) :=
    exec_next_iff.2 ⟨_, _, .accepted hidle hwf, rfl⟩
  simp only [commandRun, hexec] at hrun
  obtain ⟨evs, hP, hruns⟩ := sequencerRun_induction hstep hstart
    (by rw [State.engine_setEngine]; exact .accepted hready) hrun
  refine ⟨?_, hruns.idle hended⟩
  rw [newEvents, hruns.trace, List.drop_left]
  exact hP

end

end Sys2Proof.Machine
end

section
/-! The two SPI exchanges, from acceptance to their end (O46). -/

namespace Sys2Proof.Machine

/-- The DR accesses of a trace, in order. -/
def drAccesses (trace : List Event) : List Event :=
  trace.filter fun ev => ev matches .spiTx8 _ | .spiRx8 _ | .spiTx16 _ | .spiRx16 _

/-- The two widths of an exchange (42_spi R191, R192): the micro-program, its DR write, its DR read by the value that came,
and that value as RDATA has it. -/
inductive IsExchange : Instr → Event → (Half → Event) → (Half → Half) → Prop
  | byte (data : BitVec 8) :
    IsExchange (.spiSr8 data) (.spiTx8 data) (fun t => .spiRx8 (t.setWidth 8)) fun t => (t.setWidth 8).setWidth 16
  | half (data : BitVec 16) : IsExchange (.spiSr16 data) (.spiTx16 data) .spiRx16 id

/-- A failed exchange: TransmitTimeout before the DR write, ReceiveTimeout after it (42_spi R194). -/
def ExchangeFailed (tx : Event) (data : List Event) (oc : OutcomeCode) : Prop :=
  (oc = .transmitTimeout ∧ data = []) ∨ (oc = .receiveTimeout ∧ data = [tx])

/-- How far an exchange has come, by its label, with the DR accesses `data` so far. -/
def ExchangeAt (tx : Event) (rx : Half → Event) (cut : Half → Half) (data : List Event) (x : Engine) : Prop :=
  match x.mpc with
  | .x0 | .x1 | .y0 | .y1 => data = []
  | .x2 | .x3 | .y2 | .y3 => data = [tx]
  | .x4 | .y4 => data = [tx, rx x.tmp]
  | .xFail | .yFail => ExchangeFailed tx data x.fail.oc
  | .idle => (x.result.outcome = .success ∧ ∃ v, data = [tx, rx v] ∧ x.result.rdata = cut v) ∨
      ExchangeFailed tx data x.result.outcome
  | _ => False

section
variable {i : Instr} {tx : Event} {rx : Half → Event} {cut : Half → Half} {evs : List Event} {x x₀ : Engine} {r : Row}

theorem drAccesses_append (evs : List Event) (o : Option Event) :
    drAccesses (evs ++ o.toList) = drAccesses evs ++ drAccesses o.toList := List.filter_append ..

theorem csEvents_append (evs evs' : List Event) : csEvents (evs ++ evs') = csEvents evs ++ csEvents evs' :=
  List.filter_append ..

/-- A wait of an exchange accesses no DR; it goes on, fails with the outcome of its site, or stays. -/
theorem ExchangeAt.await {f : SpiFlag} {site : Site} {res : BitVec 8} {next failLabel : Label}
    (hop : r.op = .await (.spiPoll f) site res next failLabel)
    (hnext : ∀ y : Engine, y.mpc = next → ExchangeAt tx rx cut (drAccesses evs) y)
    (hfail : ∀ y : Engine, y.mpc = failLabel → y.fail.oc = siteOutcome site →
      ExchangeAt tx rx cut (drAccesses evs) y)
    (hstay : ∀ y : Engine, y.mpc = x.mpc → ExchangeAt tx rx cut (drAccesses evs) y) :
    ExchangeAt tx rx cut (drAccesses (evs ++ (r.event .spie x).toList)) (r.engine .spie x) := by
  have hdata : drAccesses (r.event .spie x).toList = [] := by simp [Row.event, MicroOp.event, hop, drAccesses]
  rw [drAccesses_append, hdata, List.append_nil]
  obtain ⟨_, hat, _⟩ | ⟨_, hat, hf⟩ | ⟨_, hmpc, _⟩ := Row.engine_await (e := .spie) (x := x) hop
  · exact hnext _ hat.mpc
  · exact hfail _ hat.mpc (by rw [hf])
  · exact hstay _ hmpc

/-- Each row of an exchange takes it one stage on. -/
theorem ExchangeAt.row (hi : IsExchange i tx rx cut) (h : ExchangeAt tx rx cut (drAccesses evs) x)
    (hruns : WithinRun i x₀ evs x) (hlabel : labelOpcode x.mpc = some i.opcode) (hrow : x.row = some r) :
    ExchangeAt tx rx cut (drAccesses (evs ++ (r.event .spie x).toList)) (r.engine .spie x) := by
  have hlatch := hruns.latch
  cases hi <;> cases hm : x.mpc <;> simp [hm, labelOpcode, Instr.opcode] at hlabel <;>
    simp only [Engine.row, hm, Option.some.injEq] at hrow <;> subst hrow <;>
    simp only [ExchangeAt, hm] at h
  case byte.x0 | byte.x2 | half.y0 | half.y2 =>
    exact ExchangeAt.await rfl (fun y hy => by simpa [ExchangeAt, hy] using h)
      (fun y hy hoc => by simp [ExchangeAt, ExchangeFailed, hy, hoc, h, siteOutcome])
      (fun y hy => by simpa [ExchangeAt, hy, hm] using h)
  case byte.x1 | half.y1 =>
    rw [drAccesses_append, h]
    simp [ExchangeAt, Row.event, MicroOp.event, Row.before_eq, drAccesses, Row.engine, Row.after_eq, MicroOp.engine,
      hlatch, latchOperands, lowData]
  case byte.x3 | half.y3 =>
    rw [drAccesses_append, h]
    simp [ExchangeAt, Row.event, MicroOp.event, Row.before_eq, drAccesses, Row.engine, Row.after_eq, MicroOp.engine,
      Engine.received]
  case byte.x4 | half.y4 =>
    refine .inl ?_
    rw [drAccesses_append, h]
    exact ⟨rfl, x.tmp, by simp [Row.event, MicroOp.event, drAccesses], rfl⟩
  case byte.xFail | half.yFail =>
    refine .inr ?_
    rw [drAccesses_append]
    show ExchangeFailed _ (drAccesses evs ++ []) x.fail.oc
    rw [List.append_nil]
    exact h

/-- The rows of an exchange emit no CS event (42_spi R194). -/
theorem Engine.row_csEvents (h : x.row = some r) (hl : labelOpcode x.mpc = some 0xA ∨ labelOpcode x.mpc = some 0xB)
    (e : EngineId) : csEvents (r.event e x).toList = [] ∧ r.csdrv = none := by
  cases hm : x.mpc <;> simp [hm, labelOpcode] at hl <;>
    simp only [Engine.row, hm, Option.some.injEq] at h <;> subst h <;>
    simp [Row.event, MicroOp.event, csEvents]

end

/-- What holds along the run of an exchange from the state `s`: its stage, and that it leaves BUF and the CS line. -/
structure ExchangeFrom (tx : Event) (rx : Half → Event) (cut : Half → Half) (s : State) (evs : List Event) (u : State) :
    Prop where
  stage : ExchangeAt tx rx cut (drAccesses evs) u.spi
  noCs : csEvents evs = []
  buf : u.spi.buf = s.spi.buf
  cs : u.cs = s.cs

section
variable {i : Instr} {tx : Event} {rx : Half → Event} {cut : Half → Half} {s t : State}

theorem IsExchange.facts (hi : IsExchange i tx rx cut) :
    i.engine = .spie ∧ (i.opcode = 0xA ∨ i.opcode = 0xB) ∧
      ∀ x : Engine, ExchangeAt tx rx cut [] (x.accept i (firstRow i).1) := by
  cases hi <;> exact ⟨rfl, by simp [Instr.opcode], fun x => by simp [ExchangeAt, firstRow]⟩

theorem ExchangeFrom.keptByRows (hi : IsExchange i tx rx cut) (x₀ : Engine) :
    KeptByRows i x₀ (ExchangeFrom tx rx cut s) := by
  obtain ⟨he, hop, _⟩ := hi.facts
  intro evs u r h hruns hlabel hrow
  rw [he] at hruns hlabel hrow ⊢
  have hl : labelOpcode u.spi.mpc = some 0xA ∨ labelOpcode u.spi.mpc = some 0xB := by
    simpa [← State.engine_spie, hlabel] using hop
  obtain ⟨hclear, hindexed⟩ := Engine.row_unindexed hrow (.inr hl)
  obtain ⟨hevent, hcsdrv⟩ := Engine.row_csEvents hrow hl .spie
  refine ⟨h.stage.row hi hruns hlabel hrow, ?_, ?_, ?_⟩
  · rw [csEvents_append, h.noCs, hevent]
    rfl
  · exact (Row.engine_unindexed hclear hindexed .spie).1.trans h.buf
  · rw [← h.cs, ← (Engine.row_cs hrow .spie u.cs).1 hcsdrv]
    simp [State.afterRow, State.observed_cs]

/-- How a run of an exchange ends. -/
theorem CommandEnded.exchange (hi : IsExchange i tx rx cut) (h : CommandEnded i s t) :
    ExchangeFrom tx rx cut s (newEvents .spie s t) t ∧ t.spi.mpc = .idle := by
  obtain ⟨he, _, hstart⟩ := hi.facts
  have hended := h.induction (P := ExchangeFrom tx rx cut s)
    (by
      rw [he]
      exact ⟨hstart _, rfl, by simp, rfl⟩)
    (ExchangeFrom.keptByRows hi _)
  rw [he] at hended
  exact hended

/-- An exchange ends in Success, having read once, or failed, having read nothing. -/
theorem CommandEnded.exchange_outcome (hi : IsExchange i tx rx cut) (h : CommandEnded i s t) :
    (t.spi.result.outcome = .success →
      ∃ v, drAccesses (newEvents .spie s t) = [tx, rx v] ∧ t.spi.result.rdata = cut v) ∧
    (t.spi.result.outcome = .transmitTimeout → drAccesses (newEvents .spie s t) = []) ∧
    (t.spi.result.outcome = .receiveTimeout → drAccesses (newEvents .spie s t) = [tx]) := by
  obtain ⟨hended, hidle⟩ := h.exchange hi
  have hstage := hended.stage
  simp only [ExchangeAt, hidle] at hstage
  obtain ⟨hoc, hdata⟩ | ⟨hoc, hdata⟩ | ⟨hoc, hdata⟩ := hstage <;> simp [hoc, hdata]

end

/-- Settles O46: the two exchanges by their stages, from acceptance to IDLE. -/
theorem exchangeReturnsWhatItReceived : Obligations.ExchangeReturnsWhatItReceived := by
  refine ⟨fun data s t h => ?_, fun data s t h => ?_⟩
  · obtain ⟨hended, _⟩ := h.exchange (.byte data)
    obtain ⟨hsuccess, htransmit, hreceive⟩ := h.exchange_outcome (.byte data)
    refine ⟨hended.noCs, hended.buf, hended.cs, fun hoc => ?_, htransmit, hreceive⟩
    obtain ⟨v, hdata, hrdata⟩ := hsuccess hoc
    exact ⟨v.setWidth 8, hdata, hrdata⟩
  · obtain ⟨hended, _⟩ := h.exchange (.half data)
    obtain ⟨hsuccess, htransmit, hreceive⟩ := h.exchange_outcome (.half data)
    exact ⟨hended.noCs, hended.buf, hended.cs, hsuccess, htransmit, hreceive⟩

end Sys2Proof.Machine
end

section
/-! The echo contract of 10_state R55 along an exchange (O47). -/

namespace Sys2Proof.Machine

section
variable {echo : Bool} {r r' : RefSpi} {ev : Event} {evs rest : List Event}

/-- Only a DR access changes the exchange that is not read yet (10_state R55). -/
theorem RefSpi.after_sent (hev : drAccesses [ev] = []) (h : r.after echo ev = some r') : r'.sent = r.sent := by
  cases ev with
  | spiTx8 b => cases hev
  | spiTx16 w => cases hev
  | spiRx8 v => cases hev
  | spiRx16 v => cases hev
  | spiPoll f v =>
    cases f <;> simp only [RefSpi.after, RefSpi.afterPoll] at h <;> split at h <;> cases h <;> rfl
  | _ => cases h; rfl

theorem RefSpi.run_sent (hevs : drAccesses evs = []) (h : r.run echo evs = some r') : r'.sent = r.sent := by
  induction evs generalizing r with
  | nil => cases h; rfl
  | cons ev evs ih =>
    obtain ⟨hev, hrest⟩ : drAccesses [ev] = [] ∧ drAccesses evs = [] := by
      rw [← List.singleton_append, drAccesses, List.filter_append, List.append_eq_nil_iff] at hevs
      exact hevs
    simp only [RefSpi.run] at h
    split at h
    · next r1 hr1 => exact (ih hrest h).trans (RefSpi.after_sent hev hr1)
    · cases h

/-- A trace the contract admits, at its first DR access. -/
theorem RefSpi.run_access (hevs : drAccesses evs = ev :: rest) (h : r.run echo evs = some r') :
    ∃ (r₁ r₂ : RefSpi) (evs' : List Event),
      r₁.sent = r.sent ∧ r₁.after echo ev = some r₂ ∧ r₂.run echo evs' = some r' ∧ drAccesses evs' = rest := by
  obtain ⟨before, evs', rfl, hbefore, _, hrest⟩ := List.filter_eq_cons_iff.1 hevs
  rw [RefSpi.run_append, Option.bind_eq_some_iff] at h
  obtain ⟨r₁, hr₁, h⟩ := h
  simp only [RefSpi.run] at h
  split at h
  · next r₂ hr₂ =>
    exact ⟨r₁, r₂, evs', RefSpi.run_sent (List.filter_eq_nil_iff.2 hbefore) hr₁, hr₂, h, hrest⟩
  · cases h

/-- A DR read that the echo contract admits returns what the DR write before it sent, alone between them. -/
theorem RefSpi.run_echo {tx rx : Event} {width : Nat} {w v : Half} (hevs : drAccesses evs = [tx, rx])
    (htx : ∀ r : RefSpi, r.after true tx = some (r.afterWrite width w))
    (hrx : ∀ r : RefSpi, r.after true rx = r.afterRead true width v) (h : r.run true evs = some r') : v = w := by
  obtain ⟨_, r₁, _, _, hr₁, h, hevs⟩ := RefSpi.run_access hevs h
  obtain ⟨r₂, _, _, hsent, hr₂, _, _⟩ := RefSpi.run_access hevs h
  rw [htx, Option.some.injEq] at hr₁
  rw [← hr₁] at hsent
  rw [hrx, RefSpi.afterRead, hsent] at hr₂
  simp only [RefSpi.afterWrite] at hr₂
  split at hr₂
  · next hecho => exact hecho.2 trivial
  · cases hr₂

end

/-- A successful exchange with an echo device returns the value its DR write put on the wire. -/
theorem CommandEnded.echo {i : Instr} {tx : Event} {rx : Half → Event} {cut : Half → Half} {s t : State}
    (hi : IsExchange i tx rx cut) (h : CommandEnded i s t) (hcontract : spiContract true (newEvents .spie s t) = true)
    (hoc : t.spi.result.outcome = .success) {width : Nat} {w : Half}
    (htx : ∀ r : RefSpi, r.after true tx = some (r.afterWrite width w))
    (hrx : ∀ (r : RefSpi) v, r.after true (rx v) = r.afterRead true width (cut v)) : t.spi.result.rdata = w := by
  obtain ⟨v, hdata, hrdata⟩ := (h.exchange_outcome hi).1 hoc
  obtain ⟨r, hrun⟩ := Option.isSome_iff_exists.1 hcontract
  rw [hrdata]
  exact RefSpi.run_echo hdata htx (fun r => hrx r v) hrun

/-- Settles O47: the two DR accesses of a successful exchange, under the contract. -/
theorem echoDeviceRoundTrip : Obligations.EchoDeviceRoundTrip :=
  ⟨fun data _ _ h hcontract hoc => h.echo (.byte data) hcontract hoc (fun _ => rfl) fun _ _ => rfl,
    fun data _ _ h hcontract hoc => h.echo (.half data) hcontract hoc (fun _ => rfl) fun _ _ => rfl⟩

end Sys2Proof.Machine
end

section
/-! The optional I2C contract (10_state R48, log 21) where the slave ACKs `m` bytes and then NACKs one: what the reference
peripheral does at the address byte, at a payload byte and at a poll. -/

namespace Sys2Proof.Machine

/-- The answers of a slave that ACKs `m` bytes and then NACKs one. -/
def nackAfter (m : Nat) (more : List Bool) : List Bool := List.replicate m true ++ false :: more

/-- A write transfer with `moved` bytes sent, each of them and the address ACKed. -/
def RefI2c.sending (autoend : Bool) (nbytes moved : Nat) (txis : RefFlag) (acks : List Bool) : RefI2c :=
  ⟨false, autoend, nbytes, moved, false, txis, .low, .low, .low, false, acks⟩

/-- A write transfer that the NACK of the byte sent last has closed. -/
def RefI2c.refused (autoend : Bool) (nbytes moved : Nat) (more : List Bool) : RefI2c :=
  ⟨false, autoend, nbytes, moved, true, .low, .low, .low, .due, true, more⟩

/-- A write transfer that waits for TXIS after `moved` bytes: the byte sent last was NACKed, or all were ACKed. -/
def RefI2c.Answered (m : Nat) (more : List Bool) (autoend : Bool) (nbytes moved : Nat) (ρ : RefI2c) : Prop :=
  (m = moved ∧ ρ = .refused autoend nbytes moved more) ∨
    ∃ d, m = moved + 1 + d ∧ ρ = .sending autoend nbytes moved .due (nackAfter d more)

section
variable {m d nbytes moved : Nat} {more : List Bool} {autoend v : Bool} {ρ ρ' : RefI2c} {txis : RefFlag}

@[simp] theorem nackAfter_zero : nackAfter 0 more = false :: more := rfl

@[simp] theorem nackAfter_succ : nackAfter (m + 1) more = true :: nackAfter m more := rfl

/-- The address byte of a write transfer (R48 (a)). -/
theorem RefI2c.start_answered :
    ((RefI2c.start (nackAfter m more)).restart false nbytes autoend).Answered m more autoend nbytes 0 := by
  cases m with
  | zero => exact .inl ⟨rfl, rfl⟩
  | succ d => exact .inr ⟨d, by omega, rfl⟩

/-- A byte with more to follow (R48 (b)). -/
theorem RefI2c.send_answered (h : moved + 1 < nbytes) :
    (RefI2c.sending autoend nbytes moved txis (nackAfter d more)).send.Answered (moved + 1 + d) more autoend nbytes
      (moved + 1) := by
  have hmoved : ¬ nbytes ≤ moved := by omega
  cases d with
  | zero =>
    refine .inl ⟨rfl, ?_⟩
    simp [RefI2c.send, RefI2c.sending, RefI2c.refused, RefI2c.nextAck, RefI2c.nacked, RefFlag.raise, hmoved]
  | succ d =>
    refine .inr ⟨d, by omega, ?_⟩
    simp [RefI2c.send, RefI2c.sending, RefI2c.nextAck, hmoved, h]

/-- The last byte of a transfer with AUTOEND: the STOP follows, on an ACK and on a NACK alike (R48 (e)). -/
theorem RefI2c.send_last_autoend :
    (RefI2c.sending true (moved + 1) moved txis (nackAfter d more)).send.stopf = .due := by
  cases d <;> simp [RefI2c.send, RefI2c.sending, RefI2c.nextAck, RefI2c.nacked, RefI2c.ended, RefFlag.raise]

/-- The last byte of a transfer without AUTOEND: TC follows an ACK, the STOP a NACK (R48 (b), (c)). -/
theorem RefI2c.send_last :
    (RefI2c.sending false (moved + 1) moved txis (nackAfter d more)).send =
      match d with
      | 0 => .refused false (moved + 1) (moved + 1) more
      | d + 1 => { RefI2c.sending false (moved + 1) (moved + 1) .low (nackAfter d more) with tc := .due } := by
  cases d <;>
    simp [RefI2c.send, RefI2c.sending, RefI2c.refused, RefI2c.nextAck, RefI2c.nacked, RefI2c.ended, RefFlag.raise]

/-- A poll that returns 0 leaves the reference peripheral. -/
theorem RefI2c.after_poll_false {f : I2cFlag} (h : ρ.after (.i2cPoll f false) = some ρ') : ρ' = ρ := by
  cases f <;> simp only [RefI2c.after, RefI2c.afterPoll, RefI2c.flag] at h <;> split at h <;>
    simp only [Option.some.injEq, reduceCtorEq] at h <;> rw [← h] <;>
    next hpoll => simp [RefI2c.withFlag, ((RefFlag.poll_some hpoll).resolve_right (by simp)).2.2]

/-- A poll that returns 1 is of a flag that is not 0. -/
theorem RefI2c.flag_of_poll_true {f : I2cFlag} (h : ρ.after (.i2cPoll f true) = some ρ') : ρ.flag f ≠ .low := by
  intro hlow
  simp [RefI2c.after, RefI2c.afterPoll, hlow, RefFlag.poll] at h

/-- After a NACK TXIS is not seen 1 (R48 (b)); otherwise it may be. -/
theorem RefI2c.Answered.txis_seen (h : ρ.Answered m more autoend nbytes moved)
    (hpoll : ρ.after (.i2cPoll .txis true) = some ρ') :
    ∃ d, m = moved + 1 + d ∧ ρ' = .sending autoend nbytes moved .high (nackAfter d more) := by
  obtain ⟨_, rfl⟩ | ⟨d, hm, rfl⟩ := h
  · exact absurd rfl (RefI2c.flag_of_poll_true hpoll)
  · exact ⟨d, hm, (Option.some.inj hpoll).symm⟩

/-- A NACK is always followed by the STOP (R48 (b)). -/
theorem RefI2c.Answered.stopf (h : ρ.Answered m more autoend nbytes moved) :
    moved ≤ m ∧ (m = moved → ρ.stopf = .due) := by
  obtain ⟨rfl, rfl⟩ | ⟨d, rfl, _⟩ := h
  · exact ⟨le_rfl, fun _ => rfl⟩
  · exact ⟨by omega, by omega⟩

end

section
variable {x : Engine} {r : Row} {ρ ρ' : RefI2c}

/-- A wait of I2CE that the contract admits: a 1 and on, or a 0 that leaves the reference peripheral, and fails or stays. -/
theorem Row.i2c_await {f : I2cFlag} {site : Site} {res : BitVec 8} {next failLabel : Label}
    (hop : r.op = .await (.i2cPoll f) site res next failLabel) (hc : r.clearIdx = false)
    (hρ : ρ.run (r.event .i2ce x).toList = some ρ') :
    (r.engine .i2ce x).idx = x.idx ∧ sentBytes (r.event .i2ce x).toList = [] ∧
    (((r.engine .i2ce x).mpc = next ∧ ρ.after (.i2cPoll f true) = some ρ') ∨
    (ρ' = ρ ∧ (r.engine .i2ce x).mpc = failLabel ∧ (r.engine .i2ce x).fail = ⟨siteOutcome site, some site, res⟩) ∨
    (ρ' = ρ ∧ (r.engine .i2ce x).mpc = x.mpc)) := by
  refine ⟨Row.engine_await_idx hop hc, by simp [Row.event, MicroOp.event, hop, sentBytes], ?_⟩
  have hafter : ρ.after (.i2cPoll f (x.env.drawFlag .i2ce).1) = some ρ' := by
    simp only [Row.event, MicroOp.event, hop, Option.toList_some, RefI2c.run, Row.before_eq] at hρ
    split at hρ
    · next h => rw [h, hρ]
    · cases hρ
  obtain ⟨hv, hat, _⟩ | ⟨hv, hat, hfail⟩ | ⟨hv, hmpc, _⟩ := Row.engine_await (e := .i2ce) (x := x) hop <;>
    rw [hv] at hafter
  · exact .inl ⟨hat.mpc, hafter⟩
  · exact .inr (.inl ⟨RefI2c.after_poll_false hafter, hat.mpc, hfail⟩)
  · exact .inr (.inr ⟨RefI2c.after_poll_false hafter, hmpc⟩)

end

end Sys2Proof.Machine
end

section
/-! I2C_WRITE against a slave that ACKs `m` bytes and then NACKs one (O48): its stages, and how it ends. -/

namespace Sys2Proof.Machine

/-- A failed I2C_WRITE, with `sent` data bytes on the bus: at the wait after the byte the slave refused the STOP is due. -/
inductive WriteFailed (n m sent : Nat) (ρ : RefI2c) : OutcomeCode → Option Site → BitVec 8 → Prop
  | address (none : sent = 0) (stop : m = 0 → ρ.stopf = .due) : WriteFailed n m sent ρ .addressPhaseTimeout (some .s5) 0
  | payload (res : BitVec 8) (pos : 0 < sent) (inside : sent ≤ n) (left : res.toNat + sent = n + 1) (acked : sent ≤ m)
    (stop : m = sent → ρ.stopf = .due) : WriteFailed n m sent ρ .dataPhaseTimeout (some .s6) res
  | stop (all : sent = n + 1) (acked : n + 1 ≤ m) (stop : ρ.stopf = .due) :
    WriteFailed n m sent ρ .stopPhaseTimeout (some .s7) 0

/-- How far an I2C_WRITE of `n` bytes has come, by its label: `sent` data bytes are on the bus, REG the first of them, and
the reference peripheral is `ρ`. -/
def WriteAt (n m : Nat) (more : List Bool) (l : Label) (sent : Nat) (ρ : RefI2c) (x : Engine) : Prop :=
  match l with
  | .wr0 => sent = 0 ∧ ρ = .start (nackAfter m more)
  | .wr1 => sent = 0 ∧ ρ.Answered m more true (n + 1) 0
  | .wr2 => sent = 0 ∧ ∃ d, m = 1 + d ∧ ρ = .sending true (n + 1) 0 .high (nackAfter d more)
  | .wr3 => sent = x.idx.toNat + 1 ∧ x.idx.toNat < n ∧ ρ.Answered m more true (n + 1) (x.idx.toNat + 1)
  | .wr4 => sent = x.idx.toNat + 1 ∧ x.idx.toNat < n ∧
      ∃ d, m = x.idx.toNat + 2 + d ∧ ρ = .sending true (n + 1) (x.idx.toNat + 1) .high (nackAfter d more)
  | .wr5 => sent = n + 1 ∧ n + 1 ≤ m ∧ ρ.stopf = .due
  | .wr6 | .wr7 => n + 1 ≤ m
  | .wrFail => WriteFailed n m sent ρ x.fail.oc x.fail.site x.fail.res
  | .idle => (x.result.outcome = .success ∧ n + 1 ≤ m) ∨
      WriteFailed n m sent ρ x.result.outcome x.result.failsite x.result.residual
  | _ => False

section
variable {dev : BitVec 7} {reg n : BitVec 8} {m sent : Nat} {more : List Bool} {evs : List Event} {x x₀ : Engine}
  {r : Row} {ρ ρ' : RefI2c}

/-- N + 1 fits 8 bits where N is legal (10_state R43, 30_encoding R93). -/
theorem writeLength_toNat (h : n.toNat < 255) : (writeLength n).toNat = n.toNat + 1 := by
  rw [writeLength_eq, BitVec.toNat_add]
  exact Nat.mod_eq_of_lt (by simpa using Nat.succ_lt_succ h)

theorem WriteAt.address (h : ρ.Answered m more true (n.toNat + 1) 0) (hsent : sent = 0) :
    WriteFailed n.toNat m sent ρ .addressPhaseTimeout (some .s5) 0 :=
  .address hsent h.stopf.2

theorem WriteAt.payload {idx : BitVec 9} (h : ρ.Answered m more true (n.toNat + 1) (idx.toNat + 1))
    (hidx : idx.toNat < n.toNat) (hsent : sent = idx.toNat + 1) :
    WriteFailed n.toNat m sent ρ .dataPhaseTimeout (some .s6) (residualOf n idx) := by
  have := residualOf_toNat hidx
  subst hsent
  exact .payload _ (by omega) (by omega) (by omega) h.stopf.1 h.stopf.2

/-- Each row of I2C_WRITE takes it one stage on, where the contract admits its event. -/
theorem WriteAt.row (h : WriteAt n.toNat m more x.mpc sent ρ x) (hn : 0 < n.toNat) (hlarge : n.toNat < 255)
    (hruns : WithinRun (.i2cWrite dev reg n) x₀ evs x) (hlabel : labelOpcode x.mpc = some 0x3) (hrow : x.row = some r)
    (hρ : ρ.run (r.event .i2ce x).toList = some ρ') :
    WriteAt n.toNat m more (r.engine .i2ce x).mpc (sent + (sentBytes (r.event .i2ce x).toList).length) ρ'
      (r.engine .i2ce x) := by
  have hlatch : x.latch.n = n := by rw [hruns.latch]; rfl
  cases hm : x.mpc <;> simp [hm, labelOpcode] at hlabel <;>
    simp only [Engine.row, hm, Option.some.injEq] at hrow <;> subst hrow <;>
    simp only [WriteAt, hm] at h
  case wr0 =>
    obtain ⟨rfl, rfl⟩ := h
    obtain rfl : (RefI2c.start (nackAfter m more)).restart false (n.toNat + 1) true = ρ' := by
      simpa [Row.event, MicroOp.event, RefI2c.run, RefI2c.after, hlatch, writeLength_toNat hlarge] using hρ
    simpa [WriteAt, Row.engine, Row.after_eq, MicroOp.engine, Row.event, MicroOp.event, sentBytes]
      using RefI2c.start_answered
  case wr1 =>
    obtain ⟨rfl, hans⟩ := h
    obtain ⟨_, hnone, ⟨hmpc, hseen⟩ | ⟨rfl, hmpc, hfail⟩ | ⟨rfl, hmpc⟩⟩ := Row.i2c_await rfl rfl hρ <;> rw [hmpc, hnone]
    · exact ⟨rfl, hans.txis_seen hseen⟩
    · rw [WriteAt, hfail]
      exact WriteAt.address hans rfl
    · rw [hm]
      exact ⟨rfl, hans⟩
  case wr2 =>
    obtain ⟨rfl, d, rfl, rfl⟩ := h
    cases hρ
    exact ⟨rfl, hn, RefI2c.send_answered (moved := 0) (by omega)⟩
  case wr3 =>
    obtain ⟨hsent, hidx, hans⟩ := h
    obtain ⟨hidx', hnone, ⟨hmpc, hseen⟩ | ⟨rfl, hmpc, hfail⟩ | ⟨rfl, hmpc⟩⟩ := Row.i2c_await rfl rfl hρ <;>
      rw [hmpc, hnone]
    · rw [WriteAt, hidx']
      exact ⟨hsent, hidx, hans.txis_seen hseen⟩
    · rw [WriteAt, hfail, hlatch]
      exact WriteAt.payload hans hidx hsent
    · rw [hm, WriteAt, hidx']
      exact ⟨hsent, hidx, hans⟩
  case wr5 =>
    obtain ⟨hsent, hm', hstop⟩ := h
    obtain ⟨_, hnone, ⟨hmpc, hseen⟩ | ⟨rfl, hmpc, hfail⟩ | ⟨rfl, hmpc⟩⟩ := Row.i2c_await rfl rfl hρ <;> rw [hmpc, hnone]
    · exact hm'
    · rw [WriteAt, hfail]
      exact .stop hsent hm' hstop
    · rw [hm]
      exact ⟨hsent, hm', hstop⟩
  case wr4 =>
    obtain ⟨rfl, hidx, d, rfl, rfl⟩ := h
    have hop : (Row.plain (.send .wr3 .wr5)).op = .send .wr3 .wr5 := rfl
    obtain ⟨hat, hidx', _⟩ := Row.engine_advance (e := .i2ce) (x := x) rfl (.inr hop)
    have hcount := idx_succ_toNat hidx
    cases hρ
    rw [hat.mpc, hlatch]
    by_cases hmore : x.idx.toNat + 1 < n.toNat
    · rw [if_pos ((morePayload_iff _ _).2 (by omega)), WriteAt, hidx', hcount]
      refine ⟨rfl, hmore, ?_⟩
      rw [show x.idx.toNat + 2 + d = x.idx.toNat + 1 + 1 + d by omega]
      exact RefI2c.send_answered (by omega)
    · obtain hlast : n.toNat = x.idx.toNat + 1 := by omega
      rw [if_neg (by rw [morePayload_iff]; omega), WriteAt, hlast]
      exact ⟨rfl, by omega, RefI2c.send_last_autoend⟩
  case wr6 =>
    have hop : (Row.plain (.emit .i2cClrStopf .wr7)).op = .emit .i2cClrStopf .wr7 := rfl
    rw [(Row.engine_emit (e := .i2ce) (x := x) hop).1.mpc]
    exact h
  case wr7 => exact .inl ⟨rfl, h⟩
  case wrFail =>
    cases hρ
    exact .inr h

/-- What holds along the run of an I2C_WRITE, where the contract admits its trace. -/
def WriteFrom (n m : Nat) (more : List Bool) (evs : List Event) (u : State) : Prop :=
  ∀ ρ, (RefI2c.start (nackAfter m more)).run evs = some ρ → WriteAt n m more u.i2c.mpc (sentBytes evs).length ρ u.i2c

theorem sentBytes_append (evs evs' : List Event) : sentBytes (evs ++ evs') = sentBytes evs ++ sentBytes evs' :=
  List.filterMap_append ..

theorem WriteFrom.keptByRows (hn : 0 < n.toNat) (hlarge : n.toNat < 255) :
    KeptByRows (.i2cWrite dev reg n) x₀ (WriteFrom n.toNat m more) := by
  intro evs u r h hruns hlabel hrow ρ' hρ'
  rw [RefI2c.run_append, Option.bind_eq_some_iff] at hρ'
  obtain ⟨ρ, hρ, hρ'⟩ := hρ'
  rw [sentBytes_append, List.length_append]
  exact (h ρ hρ).row hn hlarge hruns hlabel hrow hρ'

/-- The legal counts of I2C_WRITE (30_encoding R93). -/
theorem i2cWrite_wellFormed : (Instr.i2cWrite dev reg n).wellFormed = true ↔ n ≠ 0 ∧ n ≠ 255 := by
  have hmax : Config.nbytesMax ≤ n.toNat ↔ n = 255 := by
    simp only [Config.nbytesMax]
    constructor
    · intro h
      bv_omega
    · rintro rfl
      decide
  simp only [Instr.wellFormed, rangeError]
  split_ifs <;> simp_all

theorem i2cWrite_count (h : (Instr.i2cWrite dev reg n).wellFormed = true) : 0 < n.toNat ∧ n.toNat < 255 := by
  obtain ⟨hn, hlarge⟩ := i2cWrite_wellFormed.1 h
  bv_omega

/-- How an I2C_WRITE ends against a slave that ACKs `m` bytes and then NACKs one. -/
theorem CommandEnded.i2cWrite {s t : State} (h : CommandEnded (.i2cWrite dev reg n) s t)
    (hcontract : i2cContract (nackAfter m more) (newEvents .i2ce s t) = true) :
    (t.i2c.result.outcome = .success ∧ n.toNat + 1 ≤ m) ∨
      ∃ ρ, (RefI2c.start (nackAfter m more)).run (newEvents .i2ce s t) = some ρ ∧
        WriteFailed n.toNat m (sentBytes (newEvents .i2ce s t)).length ρ t.i2c.result.outcome t.i2c.result.failsite
          t.i2c.result.residual := by
  obtain ⟨hn, hlarge⟩ := i2cWrite_count h.2.1
  obtain ⟨hended, hidle⟩ := h.induction (P := WriteFrom n.toNat m more)
    (by
      rintro ρ ⟨⟩
      simp [WriteAt, Instr.engine, firstRow, sentBytes])
    (WriteFrom.keptByRows hn hlarge)
  obtain ⟨ρ, hρ⟩ := Option.isSome_iff_exists.1 hcontract
  have hstage := hended ρ hρ
  simp only [Instr.engine, State.engine_i2ce] at hidle
  rw [hidle] at hstage
  exact hstage.imp_right fun hfailed => ⟨ρ, hρ, hfailed⟩

end

end Sys2Proof.Machine
end

section
/-! I2C_READ against a slave that ACKs `m` bytes and then NACKs one (O48): its stages, and how it ends. -/

namespace Sys2Proof.Machine

/-- The trace starts a read transfer. -/
def startsRead (trace : List Event) : Bool := trace.any fun ev => ev matches .i2cCr2 _ true _ _ _

/-- A failed I2C_READ, with `sent` data bytes on the bus and its read transfer begun or not: at the wait after the byte the
slave refused the STOP is due. -/
inductive ReadFailed (n : BitVec 8) (m sent : Nat) (reading : Bool) (ρ : RefI2c) :
    OutcomeCode → Option Site → BitVec 8 → Prop
  | address (none : sent = 0) (write : reading = false) (stop : m = 0 → ρ.stopf = .due) :
    ReadFailed n m sent reading ρ .addressPhaseTimeout (some .s1) 0
  | register (write : reading = false) (acked : 1 ≤ m) (stop : m = 1 → ρ.stopf = .due) :
    ReadFailed n m sent reading ρ .addressPhaseTimeout (some .s2) 0
  | payload (res : BitVec 8) (acked : 2 ≤ m) (stop : m = 2 → ρ.stopf = .due ∧ res = n) :
    ReadFailed n m sent reading ρ .dataPhaseTimeout (some .s3) res
  | stop (acked : 2 < m) : ReadFailed n m sent reading ρ .stopPhaseTimeout (some .s4) 0

/-- How far an I2C_READ of `n` bytes has come, by its label: `sent` data bytes are on the bus, the read transfer has begun or
not, and the reference peripheral is `ρ`. -/
def ReadAt (n : BitVec 8) (m : Nat) (more : List Bool) (l : Label) (sent : Nat) (reading : Bool) (ρ : RefI2c)
    (x : Engine) : Prop :=
  match l with
  | .rd0 => sent = 0 ∧ reading = false ∧ ρ = .start (nackAfter m more)
  | .rd1 => sent = 0 ∧ reading = false ∧ ρ.Answered m more false 1 0
  | .rd2 => reading = false ∧ ∃ d, m = 1 + d ∧ ρ = .sending false 1 0 .high (nackAfter d more)
  | .rd3 => reading = false ∧ ((m = 1 ∧ ρ = .refused false 1 1 more) ∨
      ∃ d, m = 2 + d ∧ ρ = { RefI2c.sending false 1 1 .low (nackAfter d more) with tc := .due })
  | .rd4 => reading = false ∧ ∃ d, m = 2 + d ∧
      ρ = { RefI2c.sending false 1 1 .low (nackAfter d more) with tc := .high }
  | .rd5 => 2 ≤ m ∧ (m = 2 → ρ.stopf = .due ∧ ρ.rxne = .low ∧ x.idx = 0)
  | .rd6 | .rd7 | .rd8 | .rd9 | .rd10 => 2 < m
  | .rdFail => ReadFailed n m sent reading ρ x.fail.oc x.fail.site x.fail.res
  | .idle => (x.result.outcome = .success ∧ 2 < m) ∨
      ReadFailed n m sent reading ρ x.result.outcome x.result.failsite x.result.residual
  | _ => False

section
variable {dev : BitVec 7} {reg n : BitVec 8} {m sent : Nat} {reading : Bool} {more : List Bool} {evs : List Event}
  {x x₀ : Engine} {r : Row} {ρ ρ' : RefI2c}

/-- Each row of I2C_READ takes it one stage on, where the contract admits its event. -/
theorem ReadAt.row (h : ReadAt n m more x.mpc sent reading ρ x)
    (hruns : WithinRun (.i2cRead dev reg n) x₀ evs x) (hlabel : labelOpcode x.mpc = some 0x2) (hrow : x.row = some r)
    (hρ : ρ.run (r.event .i2ce x).toList = some ρ') :
    ReadAt n m more (r.engine .i2ce x).mpc (sent + (sentBytes (r.event .i2ce x).toList).length)
      (reading || startsRead (r.event .i2ce x).toList) ρ' (r.engine .i2ce x) := by
  have hlatch : x.latch.n = n := by rw [hruns.latch]; rfl
  cases hm : x.mpc <;> simp [hm, labelOpcode] at hlabel <;>
    simp only [Engine.row, hm, Option.some.injEq] at hrow <;> subst hrow <;>
    simp only [ReadAt, hm] at h
  case rd0 =>
    obtain ⟨rfl, rfl, rfl⟩ := h
    cases hρ
    exact ⟨rfl, rfl, RefI2c.start_answered⟩
  case rd1 =>
    obtain ⟨rfl, rfl, hans⟩ := h
    obtain ⟨_, hnone, ⟨hmpc, hseen⟩ | ⟨rfl, hmpc, hfail⟩ | ⟨rfl, hmpc⟩⟩ := Row.i2c_await rfl rfl hρ <;> rw [hmpc, hnone]
    · exact ⟨rfl, hans.txis_seen hseen⟩
    · rw [ReadAt, hfail]
      exact .address rfl rfl hans.stopf.2
    · rw [hm]
      exact ⟨rfl, rfl, hans⟩
  case rd2 =>
    obtain ⟨rfl, d, rfl, rfl⟩ := h
    cases hρ
    refine ⟨rfl, ?_⟩
    rw [RefI2c.send_last]
    cases d with
    | zero => exact .inl ⟨rfl, rfl⟩
    | succ d => exact .inr ⟨d, by omega, rfl⟩
  case rd3 =>
    obtain ⟨rfl, hans⟩ := h
    obtain ⟨_, hnone, ⟨hmpc, hseen⟩ | ⟨rfl, hmpc, hfail⟩ | ⟨rfl, hmpc⟩⟩ := Row.i2c_await rfl rfl hρ <;> rw [hmpc, hnone]
    · obtain ⟨_, rfl⟩ | ⟨d, hd, rfl⟩ := hans
      · exact absurd rfl (RefI2c.flag_of_poll_true hseen)
      · exact ⟨rfl, d, hd, (Option.some.inj hseen).symm⟩
    · rw [ReadAt, hfail]
      obtain ⟨rfl, rfl⟩ | ⟨d, rfl, _⟩ := hans
      · exact .register rfl le_rfl fun _ => rfl
      · exact .register rfl (by omega) (by omega)
    · rw [hm]
      exact ⟨rfl, hans⟩
  case rd4 =>
    obtain ⟨rfl, d, rfl, rfl⟩ := h
    cases hρ
    refine ⟨by omega, fun hd => ?_⟩
    obtain rfl : d = 0 := by omega
    exact ⟨rfl, rfl, rfl⟩
  case rd5 =>
    obtain ⟨hm', hnack⟩ := h
    obtain ⟨hidx, hnone, ⟨hmpc, hseen⟩ | ⟨rfl, hmpc, hfail⟩ | ⟨rfl, hmpc⟩⟩ := Row.i2c_await rfl rfl hρ <;>
      rw [hmpc, hnone]
    · refine lt_of_le_of_ne hm' fun h2 => ?_
      exact absurd (hnack h2.symm).2.1 (RefI2c.flag_of_poll_true hseen)
    · rw [ReadAt, hfail, hlatch]
      refine .payload _ hm' fun h2 => ?_
      obtain ⟨hstop, _, hidx⟩ := hnack h2
      exact ⟨hstop, by simp [residualOf, hidx]⟩
    · rw [hm, ReadAt, hidx]
      exact ⟨hm', hnack⟩
  case rd6 =>
    have hop : (Row.plain (.store Event.i2cRx .rd5 .rd7)).op = .store Event.i2cRx .rd5 .rd7 := rfl
    rw [(Row.engine_advance (e := .i2ce) (x := x) rfl (.inl ⟨_, hop⟩)).1.mpc]
    split
    · exact ⟨le_of_lt h, fun h2 => by omega⟩
    · exact h
  case rd8 =>
    obtain ⟨_, hnone, ⟨hmpc, hseen⟩ | ⟨rfl, hmpc, hfail⟩ | ⟨rfl, hmpc⟩⟩ := Row.i2c_await rfl rfl hρ <;> rw [hmpc, hnone]
    · exact h
    · rw [ReadAt, hfail]
      exact .stop h
    · rw [hm]
      exact h
  case rd10 => exact .inl ⟨rfl, h⟩
  case rdFail =>
    cases hρ
    show ReadAt n m more .idle (sent + 0) (reading || false) ρ _
    rw [Bool.or_false]
    exact .inr h
  all_goals exact h

/-- What holds along the run of an I2C_READ, where the contract admits its trace. -/
def ReadFrom (n : BitVec 8) (m : Nat) (more : List Bool) (evs : List Event) (u : State) : Prop :=
  ∀ ρ, (RefI2c.start (nackAfter m more)).run evs = some ρ →
    ReadAt n m more u.i2c.mpc (sentBytes evs).length (startsRead evs) ρ u.i2c

theorem ReadFrom.keptByRows : KeptByRows (.i2cRead dev reg n) x₀ (ReadFrom n m more) := by
  intro evs u r h hruns hlabel hrow ρ' hρ'
  rw [RefI2c.run_append, Option.bind_eq_some_iff] at hρ'
  obtain ⟨ρ, hρ, hρ'⟩ := hρ'
  rw [sentBytes_append, List.length_append, startsRead, List.any_append]
  exact (h ρ hρ).row hruns hlabel hrow hρ'

/-- How an I2C_READ ends against a slave that ACKs `m` bytes and then NACKs one. -/
theorem CommandEnded.i2cRead {s t : State} (h : CommandEnded (.i2cRead dev reg n) s t)
    (hcontract : i2cContract (nackAfter m more) (newEvents .i2ce s t) = true) :
    (t.i2c.result.outcome = .success ∧ 2 < m) ∨
      ∃ ρ, (RefI2c.start (nackAfter m more)).run (newEvents .i2ce s t) = some ρ ∧
        ReadFailed n m (sentBytes (newEvents .i2ce s t)).length (startsRead (newEvents .i2ce s t)) ρ
          t.i2c.result.outcome t.i2c.result.failsite t.i2c.result.residual := by
  obtain ⟨hended, hidle⟩ := h.induction (P := ReadFrom n m more)
    (by
      rintro ρ ⟨⟩
      simp [ReadAt, Instr.engine, firstRow, sentBytes, startsRead])
    ReadFrom.keptByRows
  obtain ⟨ρ, hρ⟩ := Option.isSome_iff_exists.1 hcontract
  have hstage := hended ρ hρ
  simp only [Instr.engine, State.engine_i2ce] at hidle
  rw [hidle] at hstage
  exact hstage.imp_right fun hfailed => ⟨ρ, hρ, hfailed⟩

end

end Sys2Proof.Machine
end

section
/-! I2C_WRITE with every poll answered 1, the last payload byte NACKed (O48). -/

namespace Sys2Proof.Machine

/-! ### Poll answers -/

@[simp] theorem Environment.drawValue_flags (e : EngineId) (v : Environment) : (v.drawValue e).2.flags = v.flags := by
  unfold Environment.drawValue
  split <;> rfl

@[simp] theorem payloadByte_flags (e : EngineId) (x : Engine) : (payloadByte e x).2.env.flags = x.env.flags := by
  unfold payloadByte
  dsimp only
  split <;> simp

/-- Only a wait takes a poll answer (00_scope R15). -/
theorem Row.engine_flags (r : Row) (x : Engine)
    (h : ∀ poll site res next failLabel, r.op ≠ .await poll site res next failLabel) (e : EngineId) : (r.engine e x).env.flags = x.env.flags := by
  rw [Row.engine, Row.after_eq, Row.before_eq]
  cases hop : r.op
  case await => exact absurd hop (h _ _ _ _ _)
  all_goals simp [MicroOp.engine, Engine.received]

/-- A wait whose poll is answered 1 goes on. -/
theorem Row.engine_answered {e : EngineId} {r : Row} {x : Engine} {poll : Bool → Event} {site : Site} {res : BitVec 8}
    {next failLabel : Label} {fs : List Bool} (hop : r.op = .await poll site res next failLabel)
    (hfs : x.env.flags = true :: fs) :
    (r.engine e x).mpc = next ∧ (r.engine e x).env.flags = fs ∧ r.event e x = some (poll true) := by
  have hdraw : x.env.drawFlag e = (true, { x.env with flags := fs }) := by simp [Environment.drawFlag, hfs]
  refine ⟨?_, ?_, ?_⟩ <;>
    simp [Row.engine, Row.after_eq, Row.before_eq, Row.event, MicroOp.engine, MicroOp.event, Engine.polled, hop, hdraw]

/-- A flag that is not 0 may be seen 1. -/
theorem RefI2c.after_poll_true {ρ : RefI2c} {f : I2cFlag} (h : ρ.flag f ≠ .low) :
    ∃ ρ', ρ.after (.i2cPoll f true) = some ρ' := by
  simp [RefI2c.after, RefI2c.afterPoll, RefFlag.poll_true h]

/-- TXIS is due or 1 while no byte was NACKed. -/
theorem RefI2c.Answered.txis_ne_low {m nbytes moved : Nat} {more : List Bool} {autoend : Bool} {ρ : RefI2c}
    (h : ρ.Answered m more autoend nbytes moved) (hm : m ≠ moved) : ρ.flag .txis ≠ .low := by
  obtain ⟨hm', _⟩ | ⟨_, _, rfl⟩ := h
  · exact absurd hm' hm
  · simp [RefI2c.flag, RefI2c.sending]

/-! ### A write that goes through -/

/-- The turns an I2C_WRITE of `n` bytes takes from its label to Success, while every poll returns 1. -/
def writeTurns (n : Nat) (x : Engine) : Option Nat :=
  match x.mpc with
  | .wr0 => some (2 * n + 6)
  | .wr1 => some (2 * n + 5)
  | .wr2 => some (2 * n + 4)
  | .wr3 => some (2 * (n - x.idx.toNat) + 3)
  | .wr4 => some (2 * (n - x.idx.toNat) + 2)
  | .wr5 => some 3
  | .wr6 => some 2
  | .wr7 => some 1
  | .idle => if x.result.outcome = .success then some 0 else none
  | _ => none

/-- An I2C_WRITE within its run, `k` turns from Success, with the polls it has still to make answered 1 and a slave that
ACKs all but the last payload byte. -/
structure AnsweredWrite (dev : BitVec 7) (reg n : BitVec 8) (more : List Bool) (x₀ : Engine) (k : Nat)
    (evs : List Event) (u : State) : Prop where
  runs : WithinRun (.i2cWrite dev reg n) x₀ evs u.i2c
  admitted : ∃ ρ, (RefI2c.start (nackAfter (n.toNat + 1) more)).run evs = some ρ ∧
    WriteAt n.toNat (n.toNat + 1) more u.i2c.mpc (sentBytes evs).length ρ u.i2c
  turns : writeTurns n.toNat u.i2c = some k
  ones : ∃ j fs, u.i2c.env.flags = List.replicate j true ++ fs ∧ k ≤ 2 * j + 2

section
variable {dev : BitVec 7} {reg n : BitVec 8} {more : List Bool} {x₀ : Engine} {k : Nat} {evs : List Event} {u : State}
  {r : Row}

/-- A row of such a write that the contract admits, with its polls counted, is a turn towards Success. -/
theorem AnsweredWrite.row (h : AnsweredWrite dev reg n more x₀ (k + 1) evs u) (hn : 0 < n.toNat)
    (hlarge : n.toNat < 255) (hlabel : labelOpcode u.i2c.mpc = some 0x3) (hrow : u.i2c.row = some r)
    (hin : r.op.indexed = true → u.i2c.idx.toNat < Config.bufSize)
    (hadmits : ∀ ρ sent, WriteAt n.toNat (n.toNat + 1) more u.i2c.mpc sent ρ u.i2c →
      ∃ ρ', ρ.run (r.event .i2ce u.i2c).toList = some ρ')
    (hturns : writeTurns n.toNat (r.engine .i2ce u.i2c) = some k)
    (hones : ∃ j fs, (r.engine .i2ce u.i2c).env.flags = List.replicate j true ++ fs ∧ k ≤ 2 * j + 2) :
    ∃ evs' u', sequencerTurn .i2ce u = .next u' ∧ AnsweredWrite dev reg n more x₀ k evs' u' := by
  have hbusy : u.i2c.status.busy = true := by
    by_contra hb
    rw [h.runs.idle (by simpa using hb)] at hlabel
    cases hlabel
  obtain ⟨ρ, hρ, hstage⟩ := h.admitted
  obtain ⟨ρ', hρ'⟩ := hadmits ρ _ hstage
  refine ⟨_, u.afterRow .i2ce r, (WithinRun.turn (i := .i2cWrite dev reg n) h.runs hbusy).trans
    (exec_next_of_row rfl hlabel hrow hin), h.runs.row hlabel hrow .i2ce, ⟨ρ', ?_, ?_⟩, hturns, hones⟩
  · rw [RefI2c.run_append, hρ]
    exact hρ'
  · rw [sentBytes_append, List.length_append]
    exact hstage.row hn hlarge h.runs hlabel hrow hρ'

/-- Such a row that is no wait. -/
theorem AnsweredWrite.quiet (h : AnsweredWrite dev reg n more x₀ (k + 1) evs u) (hn : 0 < n.toNat)
    (hlarge : n.toNat < 255) (hlabel : labelOpcode u.i2c.mpc = some 0x3) (hrow : u.i2c.row = some r)
    (hop : ∀ poll site res next failLabel, r.op ≠ .await poll site res next failLabel)
    (hin : r.op.indexed = true → u.i2c.idx.toNat < Config.bufSize)
    (hadmits : ∀ ρ : RefI2c, ∃ ρ', ρ.run (r.event .i2ce u.i2c).toList = some ρ')
    (hturns : writeTurns n.toNat (r.engine .i2ce u.i2c) = some k) :
    ∃ evs' u', sequencerTurn .i2ce u = .next u' ∧ AnsweredWrite dev reg n more x₀ k evs' u' := by
  obtain ⟨j, fs, hfs, hj⟩ := h.ones
  exact h.row hn hlarge hlabel hrow hin (fun ρ _ _ => hadmits ρ) hturns
    ⟨j, fs, by rw [r.engine_flags u.i2c hop, hfs], by omega⟩

/-- Such a row that waits for a flag that is due. -/
theorem AnsweredWrite.poll (h : AnsweredWrite dev reg n more x₀ (k + 1) evs u) (hk : ∃ c, k = 2 * c + 2)
    (hn : 0 < n.toNat) (hlarge : n.toNat < 255) (hlabel : labelOpcode u.i2c.mpc = some 0x3) (hrow : u.i2c.row = some r)
    {f : I2cFlag} {site : Site} {res : BitVec 8} {next failLabel : Label} (hop : r.op = .await (.i2cPoll f) site res next failLabel)
    (hdue : ∀ ρ sent, WriteAt n.toNat (n.toNat + 1) more u.i2c.mpc sent ρ u.i2c → ρ.flag f ≠ .low)
    (hturns : ∀ y : Engine, y.mpc = next → y.idx = (r.engine .i2ce u.i2c).idx → writeTurns n.toNat y = some k) :
    ∃ evs' u', sequencerTurn .i2ce u = .next u' ∧ AnsweredWrite dev reg n more x₀ k evs' u' := by
  obtain ⟨j, fs, hfs, hj⟩ := h.ones
  obtain ⟨c, rfl⟩ := hk
  obtain ⟨j, rfl⟩ : ∃ j', j = j' + 1 := ⟨j - 1, by omega⟩
  obtain ⟨hmpc, hflags, hevent⟩ := Row.engine_answered (e := .i2ce) hop hfs
  refine h.row hn hlarge hlabel hrow (by simp [hop, MicroOp.indexed]) (fun ρ sent hstage => ?_) (hturns _ hmpc rfl)
    ⟨j, fs, hflags, by omega⟩
  obtain ⟨ρ', hρ'⟩ := RefI2c.after_poll_true (hdue ρ sent hstage)
  exact ⟨ρ', by simp [hevent, RefI2c.run, hρ']⟩

/-- While every poll returns 1 a turn of I2C_WRITE is a turn towards Success. -/
theorem AnsweredWrite.turn (h : AnsweredWrite dev reg n more x₀ (k + 1) evs u) (hn : 0 < n.toNat)
    (hlarge : n.toNat < 255) :
    ∃ evs' u', sequencerTurn .i2ce u = .next u' ∧ AnsweredWrite dev reg n more x₀ k evs' u' := by
  have hturns := h.turns
  obtain ⟨ρ, _, hstage⟩ := h.admitted
  have hlatch : u.i2c.latch.n = n := by rw [h.runs.latch]; rfl
  cases hm : u.i2c.mpc <;> simp only [writeTurns, hm, reduceCtorEq, Option.some.injEq] at hturns <;>
    simp only [WriteAt, hm] at hstage
  case idle => split at hturns <;> cases hturns
  case wr0 =>
    refine h.quiet hn hlarge (by rw [hm]; rfl) (by rw [Engine.row, hm]) (by simp) (by simp [MicroOp.indexed])
      (fun ρ => ⟨_, rfl⟩) ?_
    simp [writeTurns, Row.engine, Row.after_eq, MicroOp.engine]
    omega
  case wr1 =>
    refine h.poll ⟨n.toNat + 1, by omega⟩ hn hlarge (by rw [hm]; rfl) (by rw [Engine.row, hm]) rfl
      (fun ρ sent hstage => ?_) (fun y hy _ => by simp only [writeTurns, hy, Option.some.injEq]; omega)
    rw [hm] at hstage
    exact hstage.2.txis_ne_low (by omega)
  case wr2 =>
    refine h.quiet hn hlarge (by rw [hm]; rfl) (by rw [Engine.row, hm]) (by simp) (by simp [MicroOp.indexed])
      (fun ρ => ⟨_, rfl⟩) ?_
    simp [writeTurns, Row.engine, Row.after_eq, MicroOp.engine]
    omega
  case wr3 =>
    obtain ⟨_, hidx, _⟩ := hstage
    refine h.poll ⟨n.toNat - u.i2c.idx.toNat, by omega⟩ hn hlarge (by rw [hm]; rfl) (by rw [Engine.row, hm]) rfl
      (fun ρ sent hstage => ?_) (fun y hy hyidx => ?_)
    · rw [hm] at hstage
      exact hstage.2.2.txis_ne_low (by omega)
    · rw [Row.engine_await_idx rfl rfl] at hyidx
      simp only [writeTurns, hy, hyidx, Option.some.injEq]
      omega
  case wr4 =>
    obtain ⟨_, hidx, _⟩ := hstage
    have hop : (Row.plain (.send .wr3 .wr5)).op = .send .wr3 .wr5 := rfl
    obtain ⟨hat, hidx', _⟩ := Row.engine_advance (e := .i2ce) (x := u.i2c) rfl (.inr hop)
    have hcount := idx_succ_toNat hidx
    refine h.quiet hn hlarge (by rw [hm]; rfl) (by rw [Engine.row, hm]) (by simp)
      (fun _ => lt_trans hidx n.isLt) (fun ρ => ⟨_, rfl⟩) ?_
    rw [writeTurns, hat.mpc, hlatch, hidx', hcount]
    by_cases hmore : u.i2c.idx.toNat + 1 < n.toNat
    · rw [if_pos ((morePayload_iff _ _).2 (by omega))]
      simp only [Option.some.injEq]
      omega
    · rw [if_neg (by rw [morePayload_iff]; omega)]
      simp only [Option.some.injEq]
      omega
  case wr5 =>
    refine h.poll ⟨0, by omega⟩ hn hlarge (by rw [hm]; rfl) (by rw [Engine.row, hm]) rfl
      (fun ρ sent hstage => ?_) (fun y hy _ => by simp only [writeTurns, hy, Option.some.injEq]; omega)
    rw [hm] at hstage
    simp [RefI2c.flag, hstage.2.2]
  case wr6 =>
    refine h.quiet hn hlarge (by rw [hm]; rfl) (by rw [Engine.row, hm]) (by simp) (by simp [MicroOp.indexed])
      (fun ρ => ⟨_, rfl⟩) ?_
    simp [writeTurns, Row.engine, Row.after_eq, MicroOp.engine]
    omega
  case wr7 =>
    refine h.quiet hn hlarge (by rw [hm]; rfl) (by rw [Engine.row, hm]) (by simp) (by simp [MicroOp.indexed])
      (fun ρ => ⟨_, rfl⟩) ?_
    simp [writeTurns, Row.engine, Row.after_eq, MicroOp.engine, successResult]
    omega

/-- With every poll answered 1 the write reaches Success in the turns counted. -/
theorem AnsweredWrite.run (h : AnsweredWrite dev reg n more x₀ k evs u) (hn : 0 < n.toNat) (hlarge : n.toNat < 255) :
    ∃ evs' t, sequencerRun .i2ce k u = .next t ∧ AnsweredWrite dev reg n more x₀ 0 evs' t := by
  induction k generalizing evs u with
  | zero => exact ⟨evs, u, rfl, h⟩
  | succ k ih =>
    obtain ⟨evs₁, u₁, hturn, h₁⟩ := h.turn hn hlarge
    simp only [sequencerRun, hturn]
    exact ih h₁

/-- Where no turn is left, the command has ended in Success. -/
theorem AnsweredWrite.ended (h : AnsweredWrite dev reg n more x₀ 0 evs u) :
    u.i2c.mpc = .idle ∧ u.i2c.result.outcome = .success := by
  have hturns := h.turns
  cases hm : u.i2c.mpc <;> simp [writeTurns, hm] at hturns
  exact ⟨rfl, hturns⟩

/-- A ready engine that accepts an I2C_WRITE with its polls answered 1 is on its way to Success. -/
theorem AnsweredWrite.accepted {s : State} {fs : List Bool} (hready : s.i2c.ReadyFor (.i2cWrite dev reg n))
    (hfs : s.i2c.env.flags = List.replicate (n.toNat + 2) true ++ fs) :
    AnsweredWrite dev reg n more s.i2c (2 * n.toNat + 6) []
      (s.setEngine .i2ce (s.i2c.accept (.i2cWrite dev reg n) .wr0)) where
  runs := .accepted hready
  admitted := ⟨_, rfl, by simp [WriteAt, sentBytes]⟩
  turns := by simp [writeTurns]
  ones := ⟨n.toNat + 2, fs, by simpa using hfs, by omega⟩

end

/-- With every poll answered 1 and only the last payload byte NACKed, I2C_WRITE returns Success: that NACK is not detected
(41_i2c R132). -/
theorem i2cWrite_last_nack_undetected {dev : BitVec 7} {reg n : BitVec 8} {s : State} {fs : List Bool} (more : List Bool)
    (hready : s.i2c.ReadyFor (.i2cWrite dev reg n)) (hn : n ≠ 0) (hn' : n ≠ 255)
    (hfs : s.i2c.env.flags = List.replicate (n.toNat + 2) true ++ fs) :
    ∃ t, CommandEnded (.i2cWrite dev reg n) s t ∧ t.i2c.result.outcome = .success ∧
      i2cContract (nackAfter (n.toNat + 1) more) (newEvents .i2ce s t) = true := by
  have hwf : (Instr.i2cWrite dev reg n).wellFormed = true := i2cWrite_wellFormed.2 ⟨hn, hn'⟩
  obtain ⟨hpos, hlarge⟩ := i2cWrite_count hwf
  obtain ⟨evs, t, hrun, ht⟩ := (AnsweredWrite.accepted (more := more) hready hfs).run hpos hlarge
  obtain ⟨hidle, hsuccess⟩ := ht.ended
  obtain ⟨ρ, hρ, _⟩ := ht.admitted
  have hexec : exec (.i2cWrite dev reg n) s =
      .next (s.setEngine .i2ce (s.i2c.accept (.i2cWrite dev reg n) .wr0)) :=
    exec_next_iff.2 ⟨_, _, .accepted hready.2.1.2 hwf, rfl⟩
  refine ⟨t, ⟨hready, hwf, 2 * n.toNat + 6, ?_, ?_⟩, hsuccess, ?_⟩
  · simp only [commandRun, hexec]
    exact hrun
  · exact ht.runs.ended hidle
  · rw [i2cContract, newEvents, State.engine_i2ce, State.engine_i2ce, ht.runs.trace, List.drop_left, hρ]
    rfl

end Sys2Proof.Machine
end

section
/-! Where a NACK surfaces (O48). -/

namespace Sys2Proof.Machine

/-- STOPF is left set where the STOP is due at the end of the trace (70_reset R262). -/
theorem stopfLeftSet_of_due {acks : List Bool} {trace : List Event} {ρ : RefI2c}
    (h : (RefI2c.start acks).run trace = some ρ) (hdue : ρ.stopf = .due) : stopfLeftSet acks trace = true := by
  simp [stopfLeftSet, h, hdue]

/-- A trace with I2C_TX sends a byte, and one with the START of a read transfer starts it. -/
theorem sentBytes_pos {b : Byte} {trace : List Event} (h : Event.i2cTx b ∈ trace) : 0 < (sentBytes trace).length :=
  List.length_pos_of_mem (List.mem_filterMap.2 ⟨_, h, rfl⟩)

theorem startsRead_of_mem {sadd : BitVec 10} {nbytes : BitVec 8} {autoend start : Bool} {trace : List Event}
    (h : Event.i2cCr2 sadd true nbytes autoend start ∈ trace) : startsRead trace = true :=
  List.any_eq_true.2 ⟨_, h, rfl⟩

section
variable {n res : BitVec 8} {m sent : Nat} {reading : Bool} {ρ : RefI2c} {oc : OutcomeCode} {site : Option Site}

/-! ### The rows of 41_i2c R132 -/

theorem ReadFailed.of_address (h : ReadFailed n 0 sent reading ρ oc site res) :
    oc = .addressPhaseTimeout ∧ site = some .s1 ∧ res = 0 ∧ ρ.stopf = .due := by
  cases h with
  | address none write stop => exact ⟨rfl, rfl, rfl, stop rfl⟩
  | register write acked stop => omega
  | payload res acked stop => omega
  | stop acked => omega

theorem ReadFailed.of_register (h : ReadFailed n 1 sent reading ρ oc site res) (hsent : 0 < sent) :
    oc = .addressPhaseTimeout ∧ site = some .s2 ∧ res = 0 ∧ ρ.stopf = .due := by
  cases h with
  | address none write stop => omega
  | register write acked stop => exact ⟨rfl, rfl, rfl, stop rfl⟩
  | payload res acked stop => omega
  | stop acked => omega

theorem ReadFailed.of_second_address (h : ReadFailed n 2 sent true ρ oc site res) :
    oc = .dataPhaseTimeout ∧ site = some .s3 ∧ res = n ∧ ρ.stopf = .due := by
  cases h with
  | payload res acked stop => exact ⟨rfl, rfl, (stop rfl).2, (stop rfl).1⟩
  | stop acked => omega
  | address none write stop => cases write
  | register write acked stop => cases write

theorem WriteFailed.of_address {n : Nat} (h : WriteFailed n 0 sent ρ oc site res) :
    oc = .addressPhaseTimeout ∧ site = some .s5 ∧ res.toNat = 0 ∧ ρ.stopf = .due := by
  cases h with
  | address none stop => exact ⟨rfl, rfl, rfl, stop rfl⟩
  | payload res pos inside left acked stop => omega
  | stop all acked stop => omega

/-- The bytes left are those after the one refused, and the byte that was to follow it on the bus. -/
theorem WriteFailed.of_byte {n : Nat} (h : WriteFailed n m sent ρ oc site res) (hm : 0 < m) (hm' : m ≤ n)
    (hsent : m ≤ sent) :
    oc = .dataPhaseTimeout ∧ site = some .s6 ∧ res.toNat = n + 1 - m ∧ ρ.stopf = .due := by
  cases h with
  | address none stop => omega
  | payload res pos inside left acked stop => exact ⟨rfl, rfl, by omega, stop (by omega)⟩
  | stop all acked stop => omega

theorem WriteFailed.of_last {n : Nat} (h : WriteFailed n (n + 1) sent ρ oc site res) (hsent : n + 1 ≤ sent) :
    oc = .stopPhaseTimeout ∧ site = some .s7 ∧ res.toNat = 0 ∧ ρ.stopf = .due := by
  cases h with
  | address none stop => omega
  | payload res pos inside left acked stop => omega
  | stop all acked stop => exact ⟨rfl, rfl, rfl, stop⟩

end

/-- Settles O48: how I2C_READ and I2C_WRITE end against a slave that ACKs `m` bytes, at each `m`. -/
theorem nackSurfacesAtTheNextWait : Obligations.NackSurfacesAtTheNextWait := by
  refine ⟨fun dev reg n s t more h => ⟨fun hc => ?_, fun hc htx => ?_, fun hc hcr => ?_⟩,
    fun dev reg n s t more h => ⟨fun hc => ?_, fun hc hsent => ?_, fun k hk hc hsent => ?_, fun hc hsent => ?_⟩,
    fun dev reg n s flags more hready hn hn' hfs => i2cWrite_last_nack_undetected more hready hn hn' hfs⟩
  · obtain ⟨_, hm⟩ | ⟨ρ, hρ, hfailed⟩ := h.i2cRead (m := 0) hc
    · omega
    · obtain ⟨hoc, hsite, hres, hstop⟩ := hfailed.of_address
      exact ⟨hoc, hsite, hres, stopfLeftSet_of_due hρ hstop⟩
  · obtain ⟨_, hm⟩ | ⟨ρ, hρ, hfailed⟩ := h.i2cRead (m := 1) hc
    · omega
    · obtain ⟨hoc, hsite, hres, hstop⟩ := hfailed.of_register (sentBytes_pos htx)
      exact ⟨hoc, hsite, hres, stopfLeftSet_of_due hρ hstop⟩
  · obtain ⟨_, hm⟩ | ⟨ρ, hρ, hfailed⟩ := h.i2cRead (m := 2) hc
    · omega
    · rw [startsRead_of_mem hcr] at hfailed
      obtain ⟨hoc, hsite, hres, hstop⟩ := hfailed.of_second_address
      exact ⟨hoc, hsite, hres, stopfLeftSet_of_due hρ hstop⟩
  · obtain ⟨_, hm⟩ | ⟨ρ, hρ, hfailed⟩ := h.i2cWrite (m := 0) hc
    · omega
    · obtain ⟨hoc, hsite, hres, hstop⟩ := hfailed.of_address
      exact ⟨hoc, hsite, hres, stopfLeftSet_of_due hρ hstop⟩
  · have hcount := (i2cWrite_count h.2.1).1
    obtain ⟨_, hm⟩ | ⟨ρ, hρ, hfailed⟩ := h.i2cWrite (m := 1) hc
    · omega
    · obtain ⟨hoc, hsite, hres, hstop⟩ := hfailed.of_byte one_pos hcount hsent
      exact ⟨hoc, hsite, hres, stopfLeftSet_of_due hρ hstop⟩
  · obtain ⟨_, hm⟩ | ⟨ρ, hρ, hfailed⟩ := h.i2cWrite (m := k + 2) hc
    · omega
    · obtain ⟨hoc, hsite, hres, hstop⟩ := hfailed.of_byte (by omega) (by omega) hsent
      exact ⟨hoc, hsite, by rw [hres]; omega, stopfLeftSet_of_due hρ hstop⟩
  · obtain ⟨hsuccess, _⟩ | ⟨ρ, hρ, hfailed⟩ := h.i2cWrite hc
    · exact .inl hsuccess
    · obtain ⟨hoc, hsite, hres, hstop⟩ := hfailed.of_last hsent
      exact .inr ⟨hoc, hsite, hres, stopfLeftSet_of_due hρ hstop⟩

end Sys2Proof.Machine
end

section
/-! What a successful I2C_READ leaves in BUF (O38): an induction over the rows of its run. -/

namespace Sys2Proof.Machine

section
variable {r : Row} {x : Engine}

/-- A wait of I2CE moves no data and leaves idx: its poll was answered 1 and it goes on, or it fails with the outcome of
its site, or it stays (40_sequencer R112). -/
theorem Row.i2c_wait_cases {phase : Option Phase} {f : I2cFlag} {site : Site} {res : BitVec 8} {next failLabel : Label}
    (hr : ⟨phase, .await (.i2cPoll f) site res next failLabel, false, none⟩ = r) :
    (r.engine .i2ce x).idx = x.idx ∧ sentBytes (r.event .i2ce x).toList = [] ∧
      receivedBytes (r.event .i2ce x).toList = [] ∧
      (((r.engine .i2ce x).mpc = next ∧ r.event .i2ce x = some (.i2cPoll f true)) ∨
      ((r.engine .i2ce x).mpc = failLabel ∧ (r.engine .i2ce x).fail = ⟨siteOutcome site, some site, res⟩) ∨
      (r.engine .i2ce x).mpc = x.mpc) := by
  have hop : r.op = .await (.i2cPoll f) site res next failLabel := by rw [← hr]
  have hevent : r.event .i2ce x = some (.i2cPoll f (x.env.drawFlag .i2ce).1) := by
    simp [Row.event, MicroOp.event, hop, Row.before_eq]
  refine ⟨Row.engine_await_idx hop (by rw [← hr]), by simp [hevent, sentBytes], by simp [hevent, receivedBytes], ?_⟩
  obtain ⟨hv, hat, _⟩ | ⟨_, hat, hfail⟩ | ⟨_, hmpc, _⟩ := Row.engine_await (e := .i2ce) (x := x) hop
  · exact .inl ⟨hat.mpc, by rw [hevent, hv]⟩
  · exact .inr (.inl ⟨hat.mpc, hfail⟩)
  · exact .inr (.inr hmpc)

/-- The event of a store row carries the byte drawn (40_sequencer R115). -/
theorem Row.event_store {ev : Byte → Event} {again done : Label} (hop : r.op = .store ev again done) (e : EngineId) :
    r.event e x = some (ev ((x.env.drawValue e).1.setWidth 8)) := by
  simp [Row.event, MicroOp.event, hop, Row.before_eq]

/-- A store row puts that byte in BUF[idx] and leaves the others (40_sequencer R115). -/
theorem Row.engine_bufByte_store {ev : Byte → Event} {again done : Label} (hop : r.op = .store ev again done)
    (e : EngineId) (k : Nat) :
    (r.engine e x).bufByte e k =
      if k = x.idx.toNat then (x.env.drawValue e).1.setWidth 8 else x.bufByte e k := by
  unfold Engine.bufByte
  rw [r.engine_buf_store e x hop, (r.engine_sameCommand e x).bufEpoch]
  split
  · next hk => rw [hk, Memory.read?_write_same, Option.getD_some]
  · next hk => rw [Memory.read?_write_ne _ _ hk]

/-- A row other than RX -> BUF[idx] leaves every byte of BUF (10_state R30). -/
theorem Row.engine_bufByte (h : ∀ ev again done, r.op ≠ .store ev again done) (e : EngineId) (k : Nat) :
    (r.engine e x).bufByte e k = x.bufByte e k :=
  Engine.bufByte_congr e k (r.engine_buf e x h) (r.engine_sameCommand e x).bufEpoch

/-- I2C_READ receives at RD6 alone, where it stores (41_i2c R141). -/
theorem Engine.row_receives (h : x.row = some r) (hl : labelOpcode x.mpc = some 0x2) (e : EngineId) :
    (∃ again done, r.op = .store Event.i2cRx again done ∧ x.mpc = .rd6) ∨
      ((∀ ev again done, r.op ≠ .store ev again done) ∧ receivedBytes (r.event e x).toList = []) := by
  cases hm : x.mpc <;> simp [hm, labelOpcode] at hl <;>
    simp only [Engine.row, hm, Option.some.injEq] at h <;> subst h <;>
    simp [Row.event, MicroOp.event, receivedBytes]

end

theorem receivedBytes_append (evs evs' : List Event) :
    receivedBytes (evs ++ evs') = receivedBytes evs ++ receivedBytes evs' :=
  List.filterMap_append ..

/-- BUF[k] where the bytes `got` are laid over the start of what it held (20_memory R73). -/
def overlaid (got : List Byte) (held : Nat → Byte) (k : Nat) : Byte := got[k]?.getD (held k)

theorem overlaid_concat (got : List Byte) (v : Byte) (held : Nat → Byte) (k : Nat) :
    overlaid (got ++ [v]) held k = if k = got.length then v else overlaid got held k := by
  unfold overlaid
  obtain hlt | rfl | hgt := Nat.lt_trichotomy k got.length
  · rw [List.getElem?_append_left hlt, if_neg hlt.ne]
  · simp
  · rw [if_neg hgt.ne', List.getElem?_eq_none hgt.le, List.getElem?_eq_none (by simpa using hgt)]

theorem overlaid_of_lt {got : List Byte} (held : Nat → Byte) {k : Nat} (h : k < got.length) :
    got[k]? = some (overlaid got held k) := by
  rw [overlaid, List.getElem?_eq_getElem h, Option.getD_some]

theorem overlaid_of_ge {got : List Byte} (held : Nat → Byte) {k : Nat} (h : got.length ≤ k) :
    overlaid got held k = held k := by
  rw [overlaid, List.getElem?_eq_none h, Option.getD_none]

/-- How an I2C_READ of `n` bytes ends with `got` of them received: its outcome and residual (41_i2c R137, R141). -/
inductive ReadEnds (n : BitVec 8) (got : Nat) : OutcomeCode → BitVec 8 → Prop
  | success (all : got = n.toNat) : ReadEnds n got .success 0
  | address (nothing : got = 0) : ReadEnds n got .addressPhaseTimeout 0
  | data (res : BitVec 8) (short : got < n.toNat) (left : res.toNat = n.toNat - got) :
    ReadEnds n got .dataPhaseTimeout res
  | stop (all : got = n.toNat) : ReadEnds n got .stopPhaseTimeout 0

theorem ReadEnds.all_of_success {n : BitVec 8} {got : Nat} {res : BitVec 8} (h : ReadEnds n got .success res) :
    got = n.toNat := by
  cases h
  assumption

/-- How far an I2C_READ of `n` bytes has come, by its label, with `got` bytes received: idx counts them. -/
def ReadCounts (n : BitVec 8) (got : Nat) (l : Label) (x : Engine) : Prop :=
  match l with
  | .rd0 | .rd1 | .rd2 | .rd3 | .rd4 => got = 0
  | .rd5 | .rd6 => got = x.idx.toNat ∧ got < n.toNat
  | .rd7 | .rd8 | .rd9 | .rd10 => got = n.toNat
  | .rdFail => ReadEnds n got x.fail.oc x.fail.res
  | .idle => ReadEnds n got x.result.outcome x.result.residual
  | _ => False

section
variable {dev : BitVec 7} {reg n : BitVec 8} {got : Nat} {evs : List Event} {x x₀ : Engine} {r : Row} {s t : State}

/-- Each row of I2C_READ takes it one stage on. -/
theorem ReadCounts.row (h : ReadCounts n got x.mpc x) (hn : 0 < n.toNat)
    (hruns : WithinRun (.i2cRead dev reg n) x₀ evs x) (hlabel : labelOpcode x.mpc = some 0x2) (hrow : x.row = some r) :
    ReadCounts n (got + (receivedBytes (r.event .i2ce x).toList).length) (r.engine .i2ce x).mpc (r.engine .i2ce x) := by
  have hlatch : x.latch.n = n := by rw [hruns.latch]; rfl
  cases hm : x.mpc <;> simp [hm, labelOpcode] at hlabel <;>
    simp only [Engine.row, hm, Option.some.injEq] at hrow <;> simp only [ReadCounts, hm] at h
  case rd1 | rd3 =>
    obtain ⟨_, _, hnone, ⟨hmpc, _⟩ | ⟨hmpc, hfail⟩ | hmpc⟩ := Row.i2c_wait_cases (x := x) hrow <;> rw [hnone, hmpc]
    · exact h
    · rw [ReadCounts, hfail]
      exact .address h
    · rw [hm]
      exact h
  case rd5 =>
    obtain ⟨hidx, _, hnone, ⟨hmpc, _⟩ | ⟨hmpc, hfail⟩ | hmpc⟩ := Row.i2c_wait_cases (x := x) hrow <;> rw [hnone, hmpc]
    · rw [ReadCounts, hidx]
      exact h
    · obtain ⟨rfl, hidx⟩ := h
      rw [ReadCounts, hfail, hlatch]
      exact .data _ hidx (residualOf_toNat hidx)
    · rw [hm, ReadCounts, hidx]
      exact h
  case rd8 =>
    obtain ⟨_, _, hnone, ⟨hmpc, _⟩ | ⟨hmpc, hfail⟩ | hmpc⟩ := Row.i2c_wait_cases (x := x) hrow <;> rw [hnone, hmpc]
    · exact h
    · rw [ReadCounts, hfail]
      exact .stop h
    · rw [hm]
      exact h
  case rd6 =>
    obtain ⟨rfl, hlt⟩ := h
    have hop : r.op = .store Event.i2cRx .rd5 .rd7 := by rw [← hrow]
    obtain ⟨hat, hidx, _⟩ := Row.engine_advance (e := .i2ce) (x := x) (by rw [← hrow]) (.inl ⟨_, hop⟩)
    have hcount := idx_succ_toNat hlt
    rw [Row.event_store hop, hat.mpc, hlatch]
    show ReadCounts n (x.idx.toNat + 1) _ _
    by_cases hmore : x.idx.toNat + 1 < n.toNat
    · rw [if_pos ((morePayload_iff _ _).2 (by omega)), ReadCounts, hidx, hcount]
      exact ⟨rfl, hmore⟩
    · rw [if_neg (by rw [morePayload_iff]; omega), ReadCounts]
      omega
  case rd4 =>
    subst hrow
    exact ⟨h, by rw [h]; exact hn⟩
  case rd10 =>
    subst hrow
    exact .success h
  all_goals
    subst hrow
    exact h

/-- A row of I2C_READ lays the byte it receives, if any, over BUF after those before it. -/
theorem ReadCounts.row_bufByte {bytes : List Byte} {held : Nat → Byte} (h : ReadCounts n bytes.length x.mpc x)
    (hbuf : ∀ k, x.bufByte .i2ce k = overlaid bytes held k) (hlabel : labelOpcode x.mpc = some 0x2)
    (hrow : x.row = some r) (k : Nat) :
    (r.engine .i2ce x).bufByte .i2ce k = overlaid (bytes ++ receivedBytes (r.event .i2ce x).toList) held k := by
  obtain ⟨again, done, hop, hm⟩ | ⟨hop, hnone⟩ := Engine.row_receives hrow hlabel .i2ce
  · rw [hm] at h
    rw [Row.engine_bufByte_store hop, hbuf, Row.event_store hop, ← h.1, ← overlaid_concat]
    rfl
  · rw [hnone, List.append_nil, Row.engine_bufByte hop, hbuf]

/-- What holds along the run of an I2C_READ: its stage, and that the bytes received lie over what BUF held. -/
structure ReadStores (n : BitVec 8) (x₀ : Engine) (evs : List Event) (u : State) : Prop where
  counts : ReadCounts n (receivedBytes evs).length u.i2c.mpc u.i2c
  buf : ∀ k, u.i2c.bufByte .i2ce k = overlaid (receivedBytes evs) (x₀.bufByte .i2ce) k

theorem ReadStores.keptByRows (hn : 0 < n.toNat) : KeptByRows (.i2cRead dev reg n) x₀ (ReadStores n x₀) := by
  intro evs u r h hruns hlabel hrow
  refine ⟨?_, fun k => ?_⟩ <;> rw [receivedBytes_append]
  · rw [List.length_append]
    exact h.counts.row hn hruns hlabel hrow
  · exact h.counts.row_bufByte h.buf hlabel hrow k

/-- The count of an I2C_READ is not 0 (30_encoding R93). -/
theorem i2cRead_count (h : (Instr.i2cRead dev reg n).wellFormed = true) : 0 < n.toNat := by
  refine Nat.pos_of_ne_zero fun hn => ?_
  obtain rfl : n = 0 := BitVec.eq_of_toNat_eq hn
  simp [Instr.wellFormed, rangeError] at h

/-- How an I2C_READ ends, and what it leaves in BUF. -/
theorem CommandEnded.i2cRead_stores (h : CommandEnded (.i2cRead dev reg n) s t) :
    ReadEnds n (receivedBytes (newEvents .i2ce s t)).length t.i2c.result.outcome t.i2c.result.residual ∧
      ∀ k, t.i2c.bufByte .i2ce k = overlaid (receivedBytes (newEvents .i2ce s t)) (s.i2c.bufByte .i2ce) k := by
  obtain ⟨hended, hidle⟩ := h.induction (P := ReadStores n s.i2c)
    ⟨by simp [ReadCounts, Instr.engine, firstRow, receivedBytes],
      fun k => Engine.bufByte_congr .i2ce k (Engine.accept_buf ..) (Engine.accept_bufEpoch ..)⟩
    (ReadStores.keptByRows (i2cRead_count h.2.1))
  have hcounts := hended.counts
  simp only [Instr.engine, State.engine_i2ce] at hidle
  rw [hidle] at hcounts
  exact ⟨hcounts, hended.buf⟩

end

/-- Settles O38: a successful read received `n` bytes, and they are what is laid over BUF. -/
theorem i2cReadStoresInRequestOrder : Obligations.I2cReadStoresInRequestOrder := by
  intro dev reg n s t h hsuccess
  obtain ⟨hends, hbuf⟩ := h.i2cRead_stores
  rw [hsuccess] at hends
  have hall := hends.all_of_success
  refine ⟨hall, fun k hk => ?_, fun k hk => ?_⟩ <;> rw [hbuf]
  · exact overlaid_of_lt _ (by rw [hall]; exact hk)
  · exact overlaid_of_ge _ (by rw [hall]; exact hk)

end Sys2Proof.Machine
end

section
/-! What a successful I2C_WRITE sends (O40): an induction over the rows of its run. -/

namespace Sys2Proof.Machine

/-- The trace ends with a poll of STOPF that returned 1 and the events `after` it; `bytes` were sent before. -/
def SentBeforeStop (bytes : List Byte) (after evs : List Event) : Prop :=
  ∃ before, evs = before ++ .i2cPoll .stopf true :: after ∧ sentBytes before = bytes

/-- The register byte and the first `count` bytes of BUF (20_memory R73, 41_i2c R142). -/
def registerThen (reg : Byte) (held : Nat → Byte) (count : Nat) : List Byte := reg :: (List.range count).map held

theorem registerThen_succ (reg : Byte) (held : Nat → Byte) (count : Nat) :
    registerThen reg held (count + 1) = registerThen reg held count ++ [held count] := by
  simp [registerThen, List.range_succ]

/-- How far an I2C_WRITE of `n` bytes has come, by its label, with the events `evs` so far: idx counts the bytes of BUF
sent after the register byte, and the stop wait follows them. -/
def WriteSends (reg n : BitVec 8) (held : Nat → Byte) (evs : List Event) (l : Label) (x : Engine) : Prop :=
  match l with
  | .wr0 | .wr1 | .wr2 => sentBytes evs = []
  | .wr3 | .wr4 => sentBytes evs = registerThen reg held x.idx.toNat ∧ x.idx.toNat < n.toNat
  | .wr5 => sentBytes evs = registerThen reg held n.toNat
  | .wr6 => SentBeforeStop (registerThen reg held n.toNat) [] evs
  | .wr7 => SentBeforeStop (registerThen reg held n.toNat) [.i2cClrStopf] evs
  | .wrFail => x.fail.oc ≠ .success
  | .idle => x.result.outcome = .success → SentBeforeStop (registerThen reg held n.toNat) [.i2cClrStopf] evs
  | _ => False

section
variable {dev : BitVec 7} {reg n : BitVec 8} {held : Nat → Byte} {evs : List Event} {x x₀ : Engine} {r : Row}
  {s t : State}

/-- The payload row sends BUF[idx] where the host contests no byte (41_i2c R142). -/
theorem Row.event_send {again done : Label} (hop : r.op = .send again done) (hc : x.contested = []) (e : EngineId) :
    r.event e x = some (.i2cTx (x.bufByte e x.idx.toNat)) := by
  have hbefore : (r.before x).contested = [] := by rw [Row.before_eq]; exact hc
  rw [Row.event, hop, MicroOp.event, payloadByte_uncontested hbefore, Row.before_eq]
  rfl

/-- I2C_WRITE stores nothing (41_i2c R137). -/
theorem Engine.row_unstored (h : x.row = some r) (hl : labelOpcode x.mpc = some 0x3) :
    ∀ ev again done, r.op ≠ .store ev again done := by
  intro ev again done hop
  obtain hm | hm := Engine.row_store h hop <;> rw [hm] at hl <;> cases hl

/-- Each row of I2C_WRITE takes it one stage on. -/
theorem WriteSends.row (h : WriteSends reg n held evs x.mpc x) (hn : 0 < n.toNat)
    (hbuf : ∀ k, x.bufByte .i2ce k = held k) (hcontested : x.contested = [])
    (hruns : WithinRun (.i2cWrite dev reg n) x₀ evs x) (hlabel : labelOpcode x.mpc = some 0x3) (hrow : x.row = some r) :
    WriteSends reg n held (evs ++ (r.event .i2ce x).toList) (r.engine .i2ce x).mpc (r.engine .i2ce x) := by
  obtain ⟨hlatchN, hlatchReg⟩ : x.latch.n = n ∧ x.latch.reg = reg := by rw [hruns.latch]; exact ⟨rfl, rfl⟩
  cases hm : x.mpc <;> simp [hm, labelOpcode] at hlabel <;>
    simp only [Engine.row, hm, Option.some.injEq] at hrow <;> simp only [WriteSends, hm] at h
  case wr0 =>
    subst hrow
    exact (sentBytes_append evs _).trans (by rw [h]; rfl)
  case wr1 =>
    obtain ⟨_, hnone, _, ⟨hmpc, _⟩ | ⟨hmpc, hfail⟩ | hmpc⟩ := Row.i2c_wait_cases (x := x) hrow <;> rw [hmpc]
    · rw [WriteSends, sentBytes_append, hnone, List.append_nil, h]
    · rw [WriteSends, hfail]
      exact nofun
    · rw [hm, WriteSends, sentBytes_append, hnone, List.append_nil, h]
  case wr2 =>
    subst hrow
    refine ⟨(sentBytes_append evs _).trans ?_, hn⟩
    rw [h]
    exact congrArg (· :: []) hlatchReg
  case wr3 =>
    obtain ⟨hidx, hnone, _, ⟨hmpc, _⟩ | ⟨hmpc, hfail⟩ | hmpc⟩ := Row.i2c_wait_cases (x := x) hrow <;> rw [hmpc]
    · rw [WriteSends, sentBytes_append, hnone, List.append_nil, hidx]
      exact h
    · rw [WriteSends, hfail]
      exact nofun
    · rw [hm, WriteSends, sentBytes_append, hnone, List.append_nil, hidx]
      exact h
  case wr4 =>
    obtain ⟨hsent, hlt⟩ := h
    have hop : r.op = .send .wr3 .wr5 := by rw [← hrow]
    obtain ⟨hat, hidx, _⟩ := Row.engine_advance (e := .i2ce) (x := x) (by rw [← hrow]) (.inr hop)
    have hcount := idx_succ_toNat hlt
    have hsent' : sentBytes (evs ++ (r.event .i2ce x).toList) = registerThen reg held (x.idx.toNat + 1) := by
      rw [sentBytes_append, hsent, Row.event_send hop hcontested, hbuf, registerThen_succ]
      rfl
    rw [hat.mpc, hlatchN]
    by_cases hmore : x.idx.toNat + 1 < n.toNat
    · rw [if_pos ((morePayload_iff _ _).2 (by omega)), WriteSends, hidx, hcount]
      exact ⟨hsent', hmore⟩
    · rw [if_neg (by rw [morePayload_iff]; omega), WriteSends, hsent']
      congr 1
      omega
  case wr5 =>
    obtain ⟨_, hnone, _, ⟨hmpc, hseen⟩ | ⟨hmpc, hfail⟩ | hmpc⟩ := Row.i2c_wait_cases (x := x) hrow <;> rw [hmpc]
    · rw [hseen]
      exact ⟨evs, rfl, h⟩
    · rw [WriteSends, hfail]
      exact nofun
    · rw [hm, WriteSends, sentBytes_append, hnone, List.append_nil, h]
  case wr6 =>
    subst hrow
    obtain ⟨before, rfl, hsent⟩ := h
    exact ⟨before, by simp [Row.event, MicroOp.event], hsent⟩
  case wr7 =>
    subst hrow
    exact fun _ => (List.append_nil evs).symm ▸ h
  case wrFail =>
    subst hrow
    exact fun hsuccess => absurd hsuccess h

/-- What holds along the run of an I2C_WRITE: its stage, and that BUF is what it was, no byte of it contested. -/
structure WriteSendsBuf (reg n : BitVec 8) (x₀ : Engine) (evs : List Event) (u : State) : Prop where
  sends : WriteSends reg n (x₀.bufByte .i2ce) evs u.i2c.mpc u.i2c
  buf : ∀ k, u.i2c.bufByte .i2ce k = x₀.bufByte .i2ce k
  contested : u.i2c.contested = []

theorem WriteSendsBuf.keptByRows (hn : 0 < n.toNat) :
    KeptByRows (.i2cWrite dev reg n) x₀ (WriteSendsBuf reg n x₀) := by
  intro evs u r h hruns hlabel hrow
  refine ⟨h.sends.row hn h.buf h.contested hruns hlabel hrow, fun k => ?_, ?_⟩
  · exact (Row.engine_bufByte (Engine.row_unstored hrow hlabel) .i2ce k).trans (h.buf k)
  · exact (r.engine_sameCommand .i2ce u.i2c).contested.trans h.contested

/-- What an I2C_WRITE that ends has sent, and that it leaves BUF. -/
theorem CommandEnded.i2cWrite_sends (h : CommandEnded (.i2cWrite dev reg n) s t) :
    (t.i2c.result.outcome = .success →
      SentBeforeStop (registerThen reg (s.i2c.bufByte .i2ce) n.toNat) [.i2cClrStopf] (newEvents .i2ce s t)) ∧
      ∀ k, t.i2c.bufByte .i2ce k = s.i2c.bufByte .i2ce k := by
  obtain ⟨hended, hidle⟩ := h.induction (P := WriteSendsBuf reg n s.i2c)
    ⟨by simp [WriteSends, Instr.engine, firstRow, sentBytes],
      fun k => Engine.bufByte_congr .i2ce k (Engine.accept_buf ..) (Engine.accept_bufEpoch ..),
      Engine.accept_contested ..⟩
    (WriteSendsBuf.keptByRows (i2cWrite_count h.2.1).1)
  have hsends := hended.sends
  simp only [Instr.engine, State.engine_i2ce] at hidle
  rw [hidle] at hsends
  exact ⟨hsends, hended.buf⟩

end

/-- Settles O40: by the stages of the write, the register byte and the payload precede the stop wait. -/
theorem i2cWriteSendsRegisterThenPayload : Obligations.I2cWriteSendsRegisterThenPayload :=
  fun _ _ _ _ _ h hsuccess => h.i2cWrite_sends.1 hsuccess

end Sys2Proof.Machine
end

section
/-! Host accesses to a register block (O22, O23): the bytes they move, and when they raise BadAccess. -/

namespace Sys2Proof.Machine

/-! ### Bytes of words (20_memory R72) -/

/-- A host store puts byte `j` of the word in BUF[k + j]. -/
theorem storeBytes_bufByte_in (e : EngineId) (k : Nat) (v : BitVec 32) {count j : Nat} (x : Engine) (h : j < count) :
    (storeBytes k v count x).bufByte e (k + j) = byteOf v j := by
  induction count with
  | zero => omega
  | succ n ih =>
    rw [storeBytes]
    obtain hlt | rfl := Nat.lt_succ_iff_lt_or_eq.1 h
    · rw [Engine.bufByte_setBuf_ne e _ _ (by omega), ih hlt]
    · exact Engine.bufByte_setBuf_same e _ _ _

/-- A host store leaves every other byte of BUF. -/
theorem storeBytes_bufByte_out (e : EngineId) {k : Nat} (v : BitVec 32) {count j : Nat} (x : Engine)
    (h : j < k ∨ k + count ≤ j) : (storeBytes k v count x).bufByte e j = x.bufByte e j := by
  induction count with
  | zero => rfl
  | succ n ih => rw [storeBytes, Engine.bufByte_setBuf_ne e _ _ (by omega), ih (by omega)]

/-- A byte shifted to place `i` of a word is its byte `i`, and its other bytes are 0. -/
theorem extractByte_shifted (b : Byte) {i j : Nat} (hi : i < 4) :
    (b.setWidth 32 <<< (8 * i) : BitVec 32).extractLsb' (8 * j) 8 = if j = i then b else 0 := by
  ext k hk
  rw [BitVec.getElem_extractLsb', BitVec.getLsbD_shiftLeft, BitVec.getLsbD_setWidth]
  obtain hlt | rfl | hgt := Nat.lt_trichotomy j i
  · simp [hlt.ne, show 8 * j + k < 8 * i by omega]
  · simp [show 8 * j + k < 32 by omega, show k < 32 by omega, BitVec.getLsbD_eq_getElem hk]
  · simp [hgt.ne', BitVec.getLsbD_of_ge b (8 * j + k - 8 * i) (by omega)]

/-- A host load has BUF[k + j] as byte `j` of the word, and 0 above the access. -/
theorem bufWord_byte (e : EngineId) (x : Engine) (k : Nat) {count : Nat} (j : Nat) (h : count ≤ 4) :
    (bufWord e x k count).extractLsb' (8 * j) 8 = if j < count then x.bufByte e (k + j) else 0 := by
  induction count with
  | zero => simp [bufWord]
  | succ n ih =>
    rw [bufWord, BitVec.extractLsb'_or, ih (by omega), extractByte_shifted _ (by omega)]
    obtain hlt | rfl | hgt := Nat.lt_trichotomy j n
    · simp [hlt, hlt.ne, Nat.lt_succ_of_lt hlt]
    · simp
    · simp [hgt.ne', show ¬ j < n by omega, show ¬ j < n + 1 by omega]

theorem AccessSize.bytes_le (size : AccessSize) : size.bytes ≤ 4 := by
  cases size <;> decide

/-! ### Accesses by their region (20_memory R70, R71) -/

section
variable {e : EngineId} {off : BitVec 9} {size : AccessSize} {s t : State}

/-- The illegal accesses are those of R71, and no others. -/
theorem regionOf_eq_illegal_iff :
    regionOf off size = .illegal ↔
      (off.toNat < 0x00C ∧ ¬ (size = .four ∧ off.toNat % 4 = 0)) ∨
        (0x100 ≤ off.toNat ∧ off.toNat % size.bytes ≠ 0) := by
  refine ⟨fun h => ?_, regionOf_illegal⟩
  unfold regionOf at h
  dsimp only at h
  split_ifs at h with hregs hword _ _ hreserved haligned
  · exact .inl ⟨hregs, hword⟩
  · exact .inr ⟨by omega, haligned⟩

/-- `raise HostFault(BadAccess)` adds that kind alone (10_state R39). -/
theorem State.onEngine_raise_badAccess (s : State) (e : EngineId) :
    s.onEngine e (Engine.raise .badAccess) =
      s.setEngine e { s.engine e with faults := { (s.engine e).faults with badAccess := true } } := rfl

theorem memWrite_illegal (h : (s.engine e).faults.cmdWhileBusy = false) (hr : regionOf off size = .illegal)
    (v : BitVec 32) : memWrite e off size v s = .next (s.onEngine e (Engine.raise .badAccess)) := by
  simp [memWrite, h, hr]

theorem memRead_illegal (h : (s.engine e).faults.cmdWhileBusy = false) (hr : regionOf off size = .illegal) :
    memRead e off size s = returnDraw e size (s.onEngine e (Engine.raise .badAccess)) := by
  simp [memRead, h, hr]

theorem memWrite_reserved (h : (s.engine e).faults.cmdWhileBusy = false) (hr : regionOf off size = .reserved)
    (v : BitVec 32) : memWrite e off size v s = .next s := by
  simp [memWrite, h, hr]

theorem memRead_reserved (h : (s.engine e).faults.cmdWhileBusy = false) (hr : regionOf off size = .reserved) :
    memRead e off size s = s.returned 0 := by
  simp [memRead, h, hr]

theorem memWrite_buf (h : (s.engine e).faults.cmdWhileBusy = false) (hb : (s.engine e).status.busy = false)
    (hr : regionOf off size = .buf) (v : BitVec 32) :
    memWrite e off size v s = .next (s.onEngine e (storeBytes (off.toNat - 0x100) v size.bytes)) := by
  simp [memWrite, h, hr, hb]

theorem memRead_buf (h : (s.engine e).faults.cmdWhileBusy = false) (hb : (s.engine e).status.busy = false)
    (hr : regionOf off size = .buf) :
    memRead e off size s = s.returned (bufWord e (s.engine e) (off.toNat - 0x100) size.bytes) := by
  simp [memRead, h, hr, hb]

/-! ### Legal accesses raise no BadAccess -/

/-- A legal read raises at most BufWhileBusy. -/
theorem memRead_badAccess (h : (s.engine e).faults.cmdWhileBusy = false) (hr : regionOf off size ≠ .illegal) :
    ((memRead e off size s).engine e).faults.badAccess = (s.engine e).faults.badAccess := by
  unfold memRead
  simp only [h, Bool.false_eq_true, if_false]
  split
  case h_1 hillegal => exact absurd hillegal hr
  case h_6 =>
    split
    · rw [engine_returnDraw, State.engine_onEngine]
      rfl
    · rw [State.engine_returned]
  all_goals rw [State.engine_returned]

/-- A step of a command raises at most NotInitialized (60_exceptions R231). -/
theorem ExecMove.badAccess {i : Instr} {x y : Engine} {o : Option Event} (h : ExecMove i x o y) :
    y.faults.badAccess = x.faults.badAccess := by
  cases h with
  | accepted idle wf => simpa [FaultSet.has] using x.accept_faults_has i (firstRow i).1 .badAccess
  | rejected idle wf => rfl
  | ran r label row inBuf => rw [(r.engine_sameCommand i.engine x).faults]

/-- A CMD write raises at most CmdWhileBusy and NotInitialized (40_sequencer R110). -/
theorem writeCmd_badAccess {w : Word} (h : writeCmd e w s = .next t) :
    (t.engine e).faults.badAccess = (s.engine e).faults.badAccess := by
  obtain ⟨_, hw⟩ | ⟨_, _, _, hw⟩ | ⟨_, i, hdec, hw⟩ := writeCmd_cases e w s <;> rw [hw] at h
  · obtain rfl : commandWhileBusy e s = t := by simpa using h
    rw [commandWhileBusy, State.engine_onEngine]
    obtain ⟨hfaults, _⟩ := unspecify_frame e (s.onEngine e (Engine.raise .cmdWhileBusy))
    rw [hfaults, State.engine_onEngine]
    rfl
  · obtain rfl : rejectCommand e s = t := by simpa using h
    rw [rejectCommand, State.engine_onEngine]
  · obtain ⟨_, rfl, _⟩ := decode_ok hdec
    obtain ⟨o, y, hmove, rfl⟩ := exec_next_iff.1 h
    rw [State.engine_setEngine, hmove.badAccess]

theorem storeBytes_faults (k : Nat) (v : BitVec 32) (count : Nat) (x : Engine) :
    (storeBytes k v count x).faults = x.faults := by
  rw [storeBytes_eq]

/-- A BUF write while BUSY = 1 raises BufWhileBusy alone (60_exceptions R232). -/
theorem writeBufBusy_badAccess (e : EngineId) (k count : Nat) (v : BitVec 32) (s : State) :
    ((writeBufBusy e k count v s).engine e).faults.badAccess = (s.engine e).faults.badAccess := by
  rw [writeBufBusy, State.engine_onEngine]
  split
  · dsimp only
    rw [storeBytes_faults]
    rfl
  · rfl

/-- A legal write raises no BadAccess. -/
theorem memWrite_badAccess {v : BitVec 32} (hf : (s.engine e).faults.cmdWhileBusy = false)
    (hr : regionOf off size ≠ .illegal) (h : memWrite e off size v s = .next t) :
    (t.engine e).faults.badAccess = (s.engine e).faults.badAccess := by
  unfold memWrite at h
  simp only [hf, Bool.false_eq_true, if_false] at h
  split at h
  case h_1 hillegal => exact absurd hillegal hr
  case h_2 => exact writeCmd_badAccess h
  case h_6 =>
    split at h <;> cases h
    · exact writeBufBusy_badAccess ..
    · rw [State.engine_onEngine, storeBytes_faults]
  all_goals
    cases h
    rfl

end

/-- Settles O22: a legal BUF access by the bytes it moves, and a narrow register write as an illegal access. -/
theorem bufIsLittleEndian : Obligations.BufIsLittleEndian := by
  intro e off size v s hf
  refine ⟨fun hoff haligned hbusy => ?_, fun hoff hsize => ?_⟩
  · have hr := regionOf_buf hoff haligned
    refine ⟨⟨_, memWrite_buf hf hbusy hr v, fun j hj => ?_, fun j hj => ?_, ?_⟩, _, memRead_buf hf hbusy hr,
      fun j _ => bufWord_byte e _ _ j size.bytes_le⟩
    · rw [State.engine_onEngine]
      exact storeBytes_bufByte_in e _ v _ hj
    · rw [State.engine_onEngine]
      exact storeBytes_bufByte_out e v _ hj
    · rw [State.engine_onEngine, ← storeBytes_eq]
      rfl
  · rw [memWrite_illegal hf (regionOf_illegal (.inl ⟨hoff, fun h => hsize h.1⟩)), State.onEngine_raise_badAccess]

/-- Settles O23: an access by its region. -/
theorem onlyIllegalAccessesAreBadAccess : Obligations.OnlyIllegalAccessesAreBadAccess := by
  intro e off size v s hf illegal
  refine ⟨fun hillegal => ?_, fun hlow hhigh => ?_, fun hlegal => ?_⟩
  · have hr := regionOf_illegal hillegal
    refine ⟨memWrite_illegal hf hr v, size.cut ((s.engine e).env.drawValue e).1, ?_, fun j hj => cut_byte size _ hj⟩
    rw [memRead_illegal hf hr]
    cases e <;> rfl
  · have hr := regionOf_reserved size hlow hhigh
    exact ⟨memWrite_reserved hf hr v, memRead_reserved hf hr⟩
  · have hr : regionOf off size ≠ .illegal := fun h => hlegal (regionOf_eq_illegal_iff.1 h)
    exact ⟨memRead_badAccess hf hr, fun _ h => memWrite_badAccess hf hr h⟩

end Sys2Proof.Machine
end

section
/-! A frame on the wire, bit by bit (O55). -/

namespace Sys2Proof.Machine

/-- MOSI carries the bits of the frame from bit 7 down to bit 0 (42_spi R182). -/
theorem mosiBits_eq (tx : Byte) : mosiBits tx = ((List.range 8).map tx.getLsbD).reverse := rfl

/-- Sampling a bit shifts it in at bit 0 (42_spi R182). -/
theorem getLsbD_shiftIn (acc : Byte) (b : Bool) {k : Nat} (hk : k < 8) :
    ((acc <<< 1) ||| (if b then 1#8 else 0#8)).getLsbD k = if k = 0 then b else acc.getLsbD (k - 1) := by
  cases k with
  | zero => cases b <;> simp
  | succ k => cases b <;> simp [hk, BitVec.getLsbD_eq_getElem (Nat.lt_of_succ_lt hk)]

/-- The byte sampled holds the bits in the order they came, the last one at bit 0. -/
theorem misoByte_getLsbD (bits : List Bool) {k : Nat} (hk : k < 8) :
    (misoByte bits).getLsbD k = bits.reverse.getD k false := by
  induction bits using List.reverseRecOn generalizing k with
  | nil => simp [misoByte]
  | append_singleton bits b ih =>
    rw [misoByte, List.foldl_append, List.foldl_cons, List.foldl_nil, getLsbD_shiftIn _ _ hk, List.reverse_concat]
    cases k with
    | zero => rfl
    | succ k => exact ih (by omega)

/-- Settles O55: both directions are the list of bits 0 to 7, reversed. -/
theorem frameBitsMostSignificantFirst : Obligations.FrameBitsMostSignificantFirst := by
  intro tx
  refine ⟨BitVec.eq_of_getLsbD_eq fun k hk => ?_, rfl, fun k hk => ?_⟩
  · rw [misoByte_getLsbD _ hk, mosiBits_eq, List.reverse_reverse]
    simp [hk]
  · rw [mosiBits_eq, List.getElem?_reverse (by simpa using hk)]
    have hk' : 7 - k < 8 := by omega
    simp [List.getElem?_range hk']

end Sys2Proof.Machine
end

section
/-! The decoder and the encoder (30_encoding R92-R100): an encoded word gives its fields back, and each of the three
checks of R94 is a fact about OP, the Z fields and the count (O1 to O4). -/

namespace Sys2Proof.Machine

/-! ### The fields of an encoded word (30_encoding R92, R98) -/

/-- The fields of a word of format T. -/
theorem formatT_fields (dev : BitVec 7) (reg n : BitVec 8) (op : BitVec 4) :
    let w := (n.setWidth 32 <<< 24) ||| (reg.setWidth 32 <<< 16) ||| (dev.setWidth 32 <<< 8) ||| op.setWidth 32
    devField w = dev ∧ regField w = reg ∧ nField w = n ∧ w &&& 0x000080FF#32 = op.setWidth 32 := by
  refine ⟨?_, ?_, ?_, ?_⟩ <;> ext k hk <;> interval_cases k <;> simp [devField, regField, nField]

/-- The fields of a word of format B. -/
theorem formatB_fields (reg n : BitVec 8) (op : BitVec 4) :
    let w := (n.setWidth 32 <<< 24) ||| (reg.setWidth 32 <<< 16) ||| op.setWidth 32
    regField w = reg ∧ nField w = n ∧ w &&& 0x0000FFFF#32 = op.setWidth 32 := by
  refine ⟨?_, ?_, ?_⟩ <;> ext k hk <;> interval_cases k <;> simp [regField, nField]

/-- The fields of a word of format X8. -/
theorem formatX8_fields (data : BitVec 8) (op : BitVec 4) :
    let w := (data.setWidth 32 <<< 16) ||| op.setWidth 32
    data8Field w = data ∧ w &&& 0xFF00FFFF#32 = op.setWidth 32 := by
  refine ⟨?_, ?_⟩ <;> ext k hk <;> interval_cases k <;> simp [data8Field]

/-- The fields of a word of format X16. -/
theorem formatX16_fields (data : BitVec 16) (op : BitVec 4) :
    let w := (data.setWidth 32 <<< 16) ||| op.setWidth 32
    data16Field w = data ∧ w &&& 0x0000FFFF#32 = op.setWidth 32 := by
  refine ⟨?_, ?_⟩ <;> ext k hk <;> interval_cases k <;> simp [data16Field]

/-- The opcode field of an encoded word, and the engine that OP[3] names (30_encoding R91, R95). -/
theorem encode_opField_engine (i : Instr) : opField (encode i) = i.opcode ∧ engineOfWord (encode i) = i.engine := by
  cases i with
  | i2cInit => exact Laws.EncodedOpcode.i2cInit
  | i2cRead dev reg n => exact Laws.EncodedOpcode.i2cRead dev reg n
  | i2cWrite dev reg n => exact Laws.EncodedOpcode.i2cWrite dev reg n
  | spiInit => exact Laws.EncodedOpcode.spiInit
  | spiSr8 data => exact Laws.EncodedOpcode.spiSr8 data
  | spiSr16 data => exact Laws.EncodedOpcode.spiSr16 data
  | spiBurst reg n => exact Laws.EncodedOpcode.spiBurst reg n

/-- The row of a command's opcode matches the command's word and rebuilds the command from it (30_encoding R97). -/
theorem opcodeRow_encode (i : Instr) :
    ∃ row build, opcodeRow i.engine i.opcode = some (row, build) ∧ encode i &&& row.mask = row.pattern ∧
      build (encode i) = i := by
  cases i with
  | i2cInit => exact ⟨_, _, rfl, rfl, rfl⟩
  | i2cRead dev reg n =>
    obtain ⟨hdev, hreg, hn, hmask⟩ := formatT_fields dev reg n 0x2
    exact ⟨_, _, rfl, hmask, congr (congrArg₂ Instr.i2cRead hdev hreg) hn⟩
  | i2cWrite dev reg n =>
    obtain ⟨hdev, hreg, hn, hmask⟩ := formatT_fields dev reg n 0x3
    exact ⟨_, _, rfl, hmask, congr (congrArg₂ Instr.i2cWrite hdev hreg) hn⟩
  | spiInit => exact ⟨_, _, rfl, rfl, rfl⟩
  | spiSr8 data =>
    obtain ⟨hdata, hmask⟩ := formatX8_fields data 0xA
    exact ⟨_, _, rfl, hmask, congrArg Instr.spiSr8 hdata⟩
  | spiSr16 data =>
    obtain ⟨hdata, hmask⟩ := formatX16_fields data 0xB
    exact ⟨_, _, rfl, hmask, congrArg Instr.spiSr16 hdata⟩
  | spiBurst reg n =>
    obtain ⟨hreg, hn, hmask⟩ := formatB_fields reg n 0xC
    exact ⟨_, _, rfl, hmask, congrArg₂ Instr.spiBurst hreg hn⟩

/-! ### The checks, by the row of the opcode (30_encoding R94, R97) -/

section
variable {e : EngineId} {w : Word} {row : OpcodeRow} {build : Word → Instr}

theorem decode_of_no_row (h : opcodeRow e (opField w) = none) : decode e w = .error .opcode := by
  simp [decode, h]

theorem decode_of_unmatched (h : opcodeRow e (opField w) = some (row, build)) (hw : w &&& row.mask ≠ row.pattern) :
    decode e w = .error .reservedBits := by
  simp [decode, h, hw]

theorem decode_of_rangeError {why : RangeError} (h : opcodeRow e (opField w) = some (row, build))
    (hw : w &&& row.mask = row.pattern) (hr : rangeError (build w) = some why) :
    decode e w = .error (.operandRange why) := by
  simp [decode, h, hw, hr]

theorem decode_of_wellFormed (h : opcodeRow e (opField w) = some (row, build)) (hw : w &&& row.mask = row.pattern)
    (hr : (build w).wellFormed = true) : decode e w = .ok (build w) := by
  simp [decode, h, hw, Option.isNone_iff_eq_none.1 hr]

end

/-- Settles O1: the row of the command's opcode rebuilds the command. -/
theorem decodeInvertsEncode : Obligations.DecodeInvertsEncode := by
  intro i hwf
  obtain ⟨row, build, hrow, hmask, hbuild⟩ := opcodeRow_encode i
  rw [← (encode_opField_engine i).1] at hrow
  rw [decode_of_wellFormed hrow hmask (hbuild.symm ▸ hwf), hbuild]

/-- Settles O2: a row's pattern fixes every bit that its operands do not hold. -/
theorem decodedWordIsItsEncoding : Obligations.DecodedWordIsItsEncoding :=
  fun _ _ _ h => decode_ok h

/-! ### The checks, by the fields of the word (30_encoding R92-R95) -/

/-- The mask and the pattern of a row: OP and the Z fields of its format, and OP (30_encoding R92, R97). -/
theorem opcodeRow_shape {e : EngineId} {op : BitVec 4} {row : OpcodeRow} {build : Word → Instr}
    (h : opcodeRow e op = some (row, build)) : row.mask = zBits op ||| 0xF#32 ∧ row.pattern = op.setWidth 32 := by
  cases e <;> simp only [opcodeRow] at h <;> split_ifs at h with hop <;> cases h <;> subst op <;> exact ⟨rfl, rfl⟩

/-- A command is well-formed where the count in its word is in range (30_encoding R93). -/
theorem wellFormed_eq (i : Instr) : i.wellFormed = !outOfRange i.opcode (nField (encode i)) := by
  cases i with
  | i2cInit => rfl
  | i2cRead dev reg n =>
    obtain ⟨_, _, (hn : nField (encode (.i2cRead dev reg n)) = n), _⟩ := formatT_fields dev reg n 0x2
    rw [hn]
    by_cases h : n = 0#8 <;> simp [h, Instr.opcode, outOfRange, Instr.wellFormed, rangeError]
  | i2cWrite dev reg n =>
    obtain ⟨_, _, (hn : nField (encode (.i2cWrite dev reg n)) = n), _⟩ := formatT_fields dev reg n 0x3
    rw [hn, Bool.eq_iff_iff, i2cWrite_wellFormed]
    simp [Instr.opcode, outOfRange]
  | spiInit => rfl
  | spiSr8 data => rfl
  | spiSr16 data => rfl
  | spiBurst reg n =>
    obtain ⟨_, (hn : nField (encode (.spiBurst reg n)) = n), _⟩ := formatB_fields reg n 0xC
    rw [hn]
    by_cases h : n = 0#8 <;> simp [h, Instr.opcode, outOfRange, Instr.wellFormed, rangeError]

/-- Check 1: an engine has a row for its own opcodes alone (30_encoding R95). -/
theorem opcodeRow_eq_none_iff {e : EngineId} {op : BitVec 4} : opcodeRow e op = none ↔ op ∉ engineOpcodes e := by
  cases e <;> simp only [opcodeRow, engineOpcodes] <;> split_ifs <;> simp_all

/-- No Z field holds a bit of OP (30_encoding R91). -/
theorem zBits_and_opMask (op : BitVec 4) : zBits op &&& 0xF#32 = 0#32 := by
  unfold zBits
  split_ifs <;> rfl

/-- The OP field is bits 3:0 (30_encoding R91). -/
theorem and_opMask (w : Word) : w &&& 0xF#32 = (opField w).setWidth 32 := by
  ext k hk
  interval_cases k <;> simp [opField]

/-- Of two masks with no bit in common, the first finds nothing where adding it changes nothing. -/
theorem and_or_eq_right_iff {w z m : Word} (h : z &&& m = 0#32) : w &&& (z ||| m) = w &&& m ↔ w &&& z = 0#32 := by
  constructor
  · intro hw
    calc w &&& z = w &&& (z ||| m) &&& z := by ext k hk; cases h : z[k] <;> simp [h]
      _ = w &&& (z &&& m) := by rw [hw, BitVec.and_assoc, BitVec.and_comm m]
      _ = 0#32 := by rw [h, BitVec.and_zero]
  · intro hw
    rw [BitVec.and_or_distrib_left, hw, BitVec.zero_or]

/-- Check 2: a row's pattern matches where every Z field is 0. -/
theorem opcodeRow_matches_iff {e : EngineId} {w : Word} {row : OpcodeRow} {build : Word → Instr}
    (h : opcodeRow e (opField w) = some (row, build)) :
    w &&& row.mask = row.pattern ↔ w &&& zBits (opField w) = 0 := by
  obtain ⟨hmask, hpattern⟩ := opcodeRow_shape h
  rw [hmask, hpattern, ← and_opMask]
  exact and_or_eq_right_iff (zBits_and_opMask _)

/-- Check 3: a matched row's operands are in range where the word's count is. -/
theorem opcodeRow_wellFormed {e : EngineId} {w : Word} {row : OpcodeRow} {build : Word → Instr}
    (h : opcodeRow e (opField w) = some (row, build)) (hw : w &&& row.mask = row.pattern) :
    (build w).wellFormed = !outOfRange (opField w) (nField w) := by
  obtain ⟨hencode, _⟩ := opcodeRow_build h hw
  have hop : (build w).opcode = opField w := by rw [← (encode_opField_engine (build w)).1, hencode]
  rw [wellFormed_eq, hop, hencode]

section
variable {e : EngineId} {w : Word}

theorem decode_of_foreign_opcode (h : opField w ∉ engineOpcodes e) : decode e w = .error .opcode :=
  decode_of_no_row (opcodeRow_eq_none_iff.2 h)

/-- A word whose opcode is the engine's finds its row. -/
theorem opcodeRow_of_mem (h : opField w ∈ engineOpcodes e) :
    ∃ row build, opcodeRow e (opField w) = some (row, build) := by
  obtain ⟨⟨row, build⟩, hrow⟩ := Option.ne_none_iff_exists'.1 (mt opcodeRow_eq_none_iff.1 (not_not_intro h))
  exact ⟨row, build, hrow⟩

theorem decode_of_reservedBits (h : opField w ∈ engineOpcodes e) (hz : w &&& zBits (opField w) ≠ 0) :
    decode e w = .error .reservedBits := by
  obtain ⟨row, build, hrow⟩ := opcodeRow_of_mem h
  exact decode_of_unmatched hrow (mt (opcodeRow_matches_iff hrow).1 hz)

theorem decode_of_outOfRange (h : opField w ∈ engineOpcodes e) (hz : w &&& zBits (opField w) = 0)
    (hn : outOfRange (opField w) (nField w) = true) : ∃ why, decode e w = .error (.operandRange why) := by
  obtain ⟨row, build, hrow⟩ := opcodeRow_of_mem h
  have hw := (opcodeRow_matches_iff hrow).2 hz
  have hwf : (build w).wellFormed = false := by rw [opcodeRow_wellFormed hrow hw, hn]; rfl
  obtain ⟨why, hwhy⟩ := Option.ne_none_iff_exists'.1 (mt Option.isNone_iff_eq_none.2 (Bool.eq_false_iff.1 hwf))
  exact ⟨why, decode_of_rangeError hrow hw hwhy⟩

theorem decode_of_inRange (h : opField w ∈ engineOpcodes e) (hz : w &&& zBits (opField w) = 0)
    (hn : outOfRange (opField w) (nField w) = false) : ∃ i, decode e w = .ok i := by
  obtain ⟨row, build, hrow⟩ := opcodeRow_of_mem h
  have hw := (opcodeRow_matches_iff hrow).2 hz
  exact ⟨build w, decode_of_wellFormed hrow hw (by rw [opcodeRow_wellFormed hrow hw, hn]; rfl)⟩

/-- A word that fails a check, written to an engine with BUSY = 0, sets REJ alone (30_encoding R94). -/
theorem memWrite_rejected {s : State} {r : Reject} (hbusy : (s.engine e).status.busy = false)
    (hf : (s.engine e).faults.cmdWhileBusy = false) (h : decode e w = .error r) :
    memWrite e 0x000 .four w s =
      .next (s.setEngine e { s.engine e with status := { (s.engine e).status with rej := true } }) := by
  rw [memWrite_cmd hf, writeCmd, if_neg (by simp [hbusy]), h]
  rfl

end

/-- Settles O4: the first check that fails names the rejection. -/
theorem malformedWordsAreRejected : Obligations.MalformedWordsAreRejected := by
  intro e w s hbusy hf
  by_cases hop : opField w ∈ engineOpcodes e
  · by_cases hz : w &&& zBits (opField w) = 0
    · cases hn : outOfRange (opField w) (nField w) with
      | true =>
        obtain ⟨why, h⟩ := decode_of_outOfRange hop hz hn
        exact ⟨by simp [h, hop], by simp [h, hz], by simp [h, hop, hz], fun _ => memWrite_rejected hbusy hf h⟩
      | false =>
        obtain ⟨i, h⟩ := decode_of_inRange hop hz hn
        exact ⟨by simp [h, hop], by simp [h, hz], by simp [h], by simp [hop, hz]⟩
    · have h := decode_of_reservedBits hop hz
      exact ⟨by simp [h, hop], iff_of_true h ⟨hop, hz⟩, iff_of_false (by simp [h]) fun ⟨_, hz', _⟩ => hz hz',
        fun _ => memWrite_rejected hbusy hf h⟩
  · have h := decode_of_foreign_opcode hop
    exact ⟨iff_of_true h hop, by simp [h, hop], by simp [h, hop], fun _ => memWrite_rejected hbusy hf h⟩

/-- A listed word that encodes a command in range decodes to it (30_encoding R98, R100). -/
theorem example_decodes {i : Instr} {w : Word} (hwf : i.wellFormed = true) (hw : encode i = w) :
    encode i = w ∧ decode i.engine w = .ok i :=
  ⟨hw, hw ▸ decodeInvertsEncode i hwf⟩

/-- Settles O3: the accepted words are encodings, and each rejected word fails the check named. -/
theorem exampleWordsDecode : Obligations.ExampleWordsDecode := by
  refine ⟨example_decodes rfl rfl, example_decodes rfl rfl, example_decodes rfl rfl, example_decodes rfl rfl,
    example_decodes rfl rfl, example_decodes rfl rfl, example_decodes rfl rfl, example_decodes rfl rfl,
    fun e => decode_of_foreign_opcode ?_, decode_of_foreign_opcode ?_, decode_of_reservedBits ?_ ?_,
    decode_of_reservedBits ?_ ?_, decode_of_rangeError rfl rfl rfl, decode_of_rangeError rfl rfl rfl,
    decode_of_reservedBits ?_ ?_, decode_of_rangeError rfl rfl rfl⟩
  case refine_1 => cases e <;> decide
  all_goals decide

end Sys2Proof.Machine
end

section
/-! The host's words on the way to an engine: WAIT (O58), acceptance (O8), and a word placed for the next step (O7). -/

namespace Sys2Proof.Machine

/-! ### WAIT (30_encoding R99) -/

/-- Settles O58: bit 0 of the STATUS word that the turn reads is BUSY. -/
theorem waitSpinsOnBusy : Obligations.WaitSpinsOnBusy := by
  intro s e hf
  obtain ⟨_, hread, _⟩ := memRead_register e s hf
  obtain ⟨hbit, _⟩ := status_word_flags (s.engine e).status
  simp only [hostAction, waitOnce, hread, State.returned_hostRead, hbit]
  cases (s.engine e).status.busy <;> rfl

/-! ### Acceptance (40_sequencer R110) -/

/-- The site of a command's first label (40_sequencer R110). -/
theorem awaitSite_firstRow (i : Instr) : awaitSite (firstRow i).1 = (firstRow i).2 := by
  cases i <;> rfl

/-- A goto loads the budget of the label's site, if it has one (10_state R38). -/
theorem Engine.goto_loadedBudget (l : Label) (x : Engine) :
    x.goto l = { x with mpc := l, budget := loadedBudget (awaitSite l) x.budget } := by
  unfold Engine.goto
  cases awaitSite l <;> rfl

/-- What acceptance writes (40_sequencer R110, case 3). -/
theorem Engine.accept_eq (i : Instr) (x : Engine) :
    x.accept i (firstRow i).1 =
      { x with
        cmd := encode i
        latch := latchOperands i x.latch
        status := { x.status with rej := false, busy := true }
        mpc := (firstRow i).1
        budget := loadedBudget (firstRow i).2 x.budget
        contested := []
        faults :=
          if i.isTransaction = true ∧ x.status.init = false then { x.faults with notInitialized := true }
          else x.faults } := by
  simp [Engine.accept, Engine.goto_loadedBudget, awaitSite_firstRow, FaultSet.record]

/-- Settles O8: exec at IDLE is acceptance, and each format gives its latches. -/
theorem idleEngineAcceptsCommand : Obligations.IdleEngineAcceptsCommand := by
  refine ⟨fun i s hwf hidle => ?_, fun l dev reg n data => ⟨rfl, rfl, rfl, rfl, rfl, rfl, rfl⟩⟩
  rw [exec_idle hidle.2, issueCommand, if_pos hwf, State.onEngine, Engine.accept_eq]

/-! ### A placed word (30_encoding R95, R98, log 5) -/

/-- Making an idle engine ready changes nothing. -/
theorem readyEngine_of_idle {x : Engine} (h : x.Idle) : readyEngine x = x := by
  obtain ⟨hbusy, hmpc⟩ := h
  simp only [readyEngine, ← hbusy, ← hmpc]

/-- The word placed is the command's, at the command's engine. -/
theorem withFetchWord_encode (s : State) (i : Instr) :
    s.withFetchWord 32 (encode i).toNat = s.withCommand i.engine (encode i) := by
  have hword : tableWord 32 (encode i).toNat = encode i := by
    rw [tableWord, Nat.mod_eq_of_lt (encode i).isLt, BitVec.ofNat_toNat, BitVec.setWidth_eq]
  rw [State.withFetchWord, hword, (encode_opField_engine i).2]

/-- The step after a word was placed at an idle engine is the host's write of it. -/
theorem step_withCommand {s : State} {e : EngineId} (h : (s.engine e).Idle) (w : Word) :
    step (s.withCommand e w) = memWrite e 0x000 .four w s := by
  have hready : s.onEngine e readyEngine = s := by
    rw [State.onEngine, readyEngine_of_idle h, State.setEngine_engine]
  rw [State.withCommand, hready]
  rfl

/-- Settles O7: the host writes the word to the command's engine, where it decodes to the command. -/
theorem placedWordIsTheNextCommand : Obligations.PlacedWordIsTheNextCommand := by
  intro s i hwf hidle hf
  rw [withFetchWord_encode, step_withCommand hidle, memWrite_cmd hf]
  simp [writeCmd, hidle.1, decodeInvertsEncode i hwf]

end Sys2Proof.Machine
end

section
/-! How many turns a command still takes (O35): the waits and the other rows on the longest path from each label to
FINISH, and that every row shortens it (40_sequencer R117). -/

namespace Sys2Proof.Machine

/-- The waits and the other rows on the longest path from a label to FINISH, the row at the label left out: `n` is the
payload of the command and `left`, at least 1 in the payload loop, what is left of it there (40_sequencer R117). -/
def rowsAfter (n left : Nat) : Label → Nat × Nat
  | .idle => (0, 0)
  | .in0 | .si0 => (0, 4)
  | .in1 | .si1 => (0, 3)
  | .in2 | .si2 => (0, 2)
  | .in3 | .si3 => (0, 1)
  | .in4 | .si4 => (0, 0)
  | .rd0 => (n + 3, n + 5)
  | .rd1 => (n + 2, n + 5)
  | .rd2 => (n + 2, n + 4)
  | .rd3 => (n + 1, n + 4)
  | .rd4 => (n + 1, n + 3)
  | .rd5 => (left, left + 3)
  | .rd6 => (left, left + 2)
  | .rd7 => (1, 2)
  | .rd8 => (0, 2)
  | .rd9 => (0, 1)
  | .rd10 | .rdFail => (0, 0)
  | .wr0 => (n + 2, n + 3)
  | .wr1 => (n + 1, n + 3)
  | .wr2 => (n + 1, n + 2)
  | .wr3 => (left, left + 2)
  | .wr4 => (left, left + 1)
  | .wr5 => (0, 2)
  | .wr6 => (0, 1)
  | .wr7 | .wrFail => (0, 0)
  | .x0 | .y0 => (1, 3)
  | .x1 | .y1 => (1, 2)
  | .x2 | .y2 => (0, 2)
  | .x3 | .y3 => (0, 1)
  | .x4 | .xFail | .y4 | .yFail => (0, 0)
  | .b0 => (2 * n + 6, 2 * n + 8)
  | .b1 => (2 * n + 5, 2 * n + 8)
  | .b2 => (2 * n + 5, 2 * n + 7)
  | .b3 => (2 * n + 4, 2 * n + 7)
  | .b4 => (2 * n + 4, 2 * n + 6)
  | .b5 => (2 * n + 3, 2 * n + 6)
  | .b6 => (2 * n + 3, 2 * n + 5)
  | .b7 => (2 * n + 2, 2 * n + 5)
  | .b8 => (2 * n + 2, 2 * n + 4)
  | .b9 => (2 * n + 1, 2 * n + 4)
  | .b10 => (2 * n + 1, 2 * n + 3)
  | .b11 => (2 * n, 2 * n + 3)
  | .b12 => (2 * n, 2 * n + 2)
  | .b13 => (2 * (left - 1) + 1, 2 * (left - 1) + 4)
  | .b14 => (2 * (left - 1) + 1, 2 * (left - 1) + 3)
  | .b15 => (2 * (left - 1), 2 * (left - 1) + 3)
  | .b16 => (2 * (left - 1), 2 * (left - 1) + 2)
  | .b17 | .bf0 => (0, 1)
  | .b18 | .bf1 => (0, 0)

/-- The same with the row at the label. -/
def rowsFrom (n left : Nat) (l : Label) : Nat × Nat :=
  rowsAfter n left l + if (awaitSite l).isSome then (1, 0) else (0, 1)

/-- A payload row at the label `l` takes one of the `left` bytes: where the test leads is on the longest path. -/
def LoopOnPath (n left : Nat) (l again done : Label) : Prop :=
  (1 < left → rowsFrom n (left - 1) again ≤ rowsAfter n left l) ∧
    (left = 1 → rowsFrom n (left - 1) done ≤ rowsAfter n left l)

/-- What a row at the label `l` leads to is on the longest path from `l`. -/
def Row.OnPath (n left : Nat) (l : Label) (r : Row) : Prop :=
  match r.op with
  | .emit _ next | .receive _ _ next =>
    (payloadAt next = true → 0 < n) → rowsFrom n (if r.clearIdx then n else left) next ≤ rowsAfter n left l
  | .await _ _ _ next failLabel =>
    rowsFrom n left next ≤ rowsAfter n left l ∧ rowsFrom n left failLabel ≤ rowsAfter n left l
  | .store _ again done | .send again done => LoopOnPath n left l again done
  | .finish _ _ | .finishDrawn => True

/-- The path of each row, read off the tables of 41_i2c R140-R142 and 42_spi R190-R193. -/
theorem Engine.row_onPath {x : Engine} {r : Row} (h : x.row = some r) (n left : Nat) : r.OnPath n left x.mpc := by
  cases hl : x.mpc <;> simp only [Engine.row, hl, reduceCtorEq, Option.some.injEq] at h <;> subst h <;>
    simp only [Row.OnPath, LoopOnPath, rowsFrom, rowsAfter, awaitSite, payloadAt, Option.isSome_none,
      Option.isSome_some, if_true, Bool.false_eq_true, if_false, forall_const, Prod.mk_add_mk, Prod.mk_le_mk] <;> omega

/-- The bytes an engine has still to move in its payload loop (00_scope R14). -/
def Engine.payloadLeft (x : Engine) : Nat := x.latch.n.toNat - x.idx.toNat

/-- The turns some waits and other rows take, where a wait takes `b` (40_sequencer R117). -/
def turnsOf (b : Nat) (rows : Nat × Nat) : Nat := rows.1 * b + rows.2

theorem turnsOf_add (b : Nat) (rows rows' : Nat × Nat) :
    turnsOf b (rows + rows') = turnsOf b rows + turnsOf b rows' := by
  simp only [turnsOf, Prod.fst_add, Prod.snd_add, Nat.add_mul]
  omega

theorem turnsOf_mono (b : Nat) {rows rows' : Nat × Nat} (h : rows ≤ rows') : turnsOf b rows ≤ turnsOf b rows' := by
  obtain ⟨hwaits, hothers⟩ := Prod.le_def.1 h
  exact Nat.add_le_add (Nat.mul_le_mul_right b hwaits) hothers

/-- The turns the row at an engine's label takes at most: at a wait, the budget that is left (40_sequencer R113). -/
def Engine.rowTurns (x : Engine) : Nat := if (awaitSite x.mpc).isSome then x.budget.toNat else 1

/-- The turns an engine takes to the end of its command at most, where no wait has a budget above `b`. -/
def Engine.turnsLeft (b : Nat) (x : Engine) : Nat :=
  x.rowTurns + turnsOf b (rowsAfter x.latch.n.toNat x.payloadLeft x.mpc)

section
variable {b : Nat} {e : EngineId} {x y : Engine} {l : Label} {r : Row}

theorem Engine.BudgetOk.rowTurns_pos (h : x.BudgetOk) : 0 < x.rowTurns := by
  unfold Engine.rowTurns
  cases hs : awaitSite x.mpc with
  | none => exact Nat.one_pos
  | some site => exact (h site hs).1

/-- An engine that has just come to a label has the path from that label before it. -/
theorem Engine.ArrivedAt.turnsLeft_le (h : y.ArrivedAt l) (hb : ∀ site, (Config.timeoutBudget site).toNat ≤ b) :
    y.turnsLeft b ≤ turnsOf b (rowsFrom y.latch.n.toNat y.payloadLeft l) := by
  rw [Engine.turnsLeft, Engine.rowTurns, rowsFrom, turnsOf_add, h.mpc, Nat.add_comm]
  refine Nat.add_le_add_left ?_ _
  cases hs : awaitSite l with
  | none => simp [turnsOf]
  | some site => simpa [turnsOf, h.budget site hs] using hb site

/-- An engine that comes to a label on its path has fewer turns left. -/
theorem Engine.ArrivedAt.turnsLeft_lt (h : y.ArrivedAt l) (hb : ∀ site, (Config.timeoutBudget site).toNat ≤ b)
    (hx : x.BudgetOk)
    (hpath : rowsFrom y.latch.n.toNat y.payloadLeft l ≤ rowsAfter x.latch.n.toNat x.payloadLeft x.mpc) :
    y.turnsLeft b < x.turnsLeft b := by
  have hpos := hx.rowTurns_pos
  have harrive := h.turnsLeft_le hb
  have hmono := turnsOf_mono b hpath
  unfold Engine.turnsLeft at *
  omega

/-- A payload row takes one byte off what is left (00_scope R14). -/
theorem Row.payloadRow_turnsLeft_lt {again done : Label} (hc : r.clearIdx = false)
    (hop : (∃ ev, r.op = .store ev again done) ∨ r.op = .send again done) (hpay : x.idx.toNat < x.latch.n.toNat)
    (hx : x.BudgetOk) (hb : ∀ site, (Config.timeoutBudget site).toNat ≤ b)
    (hpath : LoopOnPath x.latch.n.toNat x.payloadLeft x.mpc again done) :
    (r.engine e x).turnsLeft b < x.turnsLeft b := by
  obtain ⟨hat, hidx, _⟩ := Row.engine_advance (e := e) (x := x) hc hop
  have hcount := idx_succ_toNat hpay
  have hleft : (r.engine e x).payloadLeft = x.payloadLeft - 1 := by
    rw [Engine.payloadLeft, Engine.payloadLeft, (r.engine_sameCommand e x).latch, hidx, hcount]
    omega
  refine hat.turnsLeft_lt hb hx ?_
  rw [hleft, (r.engine_sameCommand e x).latch]
  split
  · next hmore =>
    rw [morePayload_iff, hcount] at hmore
    exact hpath.1 (by unfold Engine.payloadLeft; omega)
  · next hmore =>
    rw [morePayload_iff, hcount] at hmore
    exact hpath.2 (by unfold Engine.payloadLeft; omega)

/-- Each row of a command leaves it fewer turns (40_sequencer R117). -/
theorem Row.turnsLeft_lt (hrow : x.row = some r) (hfin : r.op.finishes = false) (hx : x.BudgetOk)
    (hpay : payloadAt x.mpc = true → x.idx.toNat < x.latch.n.toNat)
    (hn : payloadAt (r.engine e x).mpc = true → 0 < x.latch.n.toNat)
    (hb : ∀ site, (Config.timeoutBudget site).toNat ≤ b) : (r.engine e x).turnsLeft b < x.turnsLeft b := by
  have hf := Engine.row_fits hrow
  have hpath := Engine.row_onPath hrow x.latch.n.toNat x.payloadLeft
  have hlatch := (r.engine_sameCommand e x).latch
  have hmoved : ∀ {next}, (r.engine e x).ArrivedAt next ∧
      (r.engine e x).idx = (if r.clearIdx then 0 else x.idx) ∧ (r.engine e x).fail = x.fail →
      ((payloadAt next = true → 0 < x.latch.n.toNat) →
        rowsFrom x.latch.n.toNat (if r.clearIdx then x.latch.n.toNat else x.payloadLeft) next ≤
          rowsAfter x.latch.n.toNat x.payloadLeft x.mpc) → (r.engine e x).turnsLeft b < x.turnsLeft b := by
    rintro next ⟨hat, hidx, _⟩ hnext
    have hleft : (r.engine e x).payloadLeft = if r.clearIdx then x.latch.n.toNat else x.payloadLeft := by
      rw [Engine.payloadLeft, hlatch, hidx]
      split <;> rfl
    refine hat.turnsLeft_lt hb hx ?_
    rw [hleft, hlatch]
    exact hnext (by rw [← hat.mpc]; exact hn)
  unfold Row.Fits at hf
  unfold Row.OnPath at hpath
  cases hop : r.op <;> simp only [hop] at hf hpath
  case emit ev next => exact hmoved (Row.engine_emit hop) hpath
  case receive cut ev next => exact hmoved (Row.engine_receive hop) hpath
  case await poll site res next failLabel =>
    obtain ⟨hsite, hc, _⟩ := hf
    have hleft : (r.engine e x).payloadLeft = x.payloadLeft := by
      rw [Engine.payloadLeft, hlatch, Row.engine_await_idx hop hc, Engine.payloadLeft]
    obtain ⟨_, hat, _⟩ | ⟨_, hat, _⟩ | ⟨_, hmpc, hlt, hcount, _⟩ := Row.engine_await (e := e) (x := x) hop
    · exact hat.turnsLeft_lt hb hx (by rw [hleft, hlatch]; exact hpath.1)
    · exact hat.turnsLeft_lt hb hx (by rw [hleft, hlatch]; exact hpath.2)
    · simp only [Engine.turnsLeft, Engine.rowTurns, hmpc, hleft, hlatch, hsite, hcount, Option.isSome_some, if_true]
      omega
  case store ev again done =>
    obtain ⟨hc, _, _, hin, _⟩ := hf
    exact Row.payloadRow_turnsLeft_lt hc (.inl ⟨_, hop⟩) (hpay hin) hx hb hpath
  case send again done =>
    obtain ⟨hc, _, _, hin, _⟩ := hf
    exact Row.payloadRow_turnsLeft_lt hc (.inr hop) (hpay hin) hx hb hpath
  case finish | finishDrawn => simp [hop, MicroOp.finishes] at hfin

end

/-- The bound of R117 is the path from the first label. -/
theorem turnsOf_firstRow (b left : Nat) (i : Instr) (l : Latches) :
    turnsOf b (rowsFrom (latchOperands i l).n.toNat left (firstRow i).1) = stepBound b i := by
  cases i <;>
    simp only [turnsOf, rowsFrom, rowsAfter, firstRow, awaitSite, latchOperands, stepBound, Prod.mk_add_mk,
      Option.isSome_none, Option.isSome_some, Bool.false_eq_true, if_true, if_false] <;> ring

end Sys2Proof.Machine
end

section
/-! Every accepted command ends within its bound (O35): an induction over the turns that are left. -/

namespace Sys2Proof.Machine

/-- A row that reads or writes BUF[idx] is of the payload loop, so idx is an index of BUF (00_scope R14). -/
theorem Row.indexed_inBuf {x : Engine} {r : Row} (hf : r.Fits x)
    (hpay : payloadAt x.mpc = true → x.idx.toNat < x.latch.n.toNat) (h : r.op.indexed = true) :
    x.idx.toNat < Config.bufSize := by
  have hin : payloadAt x.mpc = true := by
    unfold Row.Fits at hf
    cases hop : r.op <;> simp only [hop, MicroOp.indexed, Bool.false_eq_true] at h hf
    case store => exact hf.2.2.2.1
    case send => exact hf.2.2.2.1
  exact lt_trans (hpay hin) x.latch.n.isLt

/-- The engine of a row's turn is where the row leaves it. -/
theorem State.engine_afterRow (s : State) (e : EngineId) (r : Row) :
    (s.afterRow e r).engine e = r.engine e (s.engine e) :=
  State.engine_setEngine ..

/-- What every state within the run of the command `i` keeps: its budget and its index are in their ranges. -/
structure UnderWay (i : Instr) (x₀ : Engine) (evs : List Event) (x : Engine) : Prop extends WithinRun i x₀ evs x where
  payload : payloadAt x.mpc = true → x.idx.toNat < x.latch.n.toNat
  budgetOk : x.BudgetOk

section
variable {i : Instr} {x₀ x : Engine} {evs : List Event} {b : Nat}

/-- Within the payload loop the count of the command is not 0 (30_encoding R93). -/
theorem WithinRun.count_pos (h : WithinRun i x₀ evs x) (hwf : i.wellFormed = true) (hpay : payloadAt x.mpc = true) :
    0 < x.latch.n.toNat := by
  have hbusy : x.status.busy = true := by
    by_contra hb
    rw [h.idle (by simpa using hb)] at hpay
    cases hpay
  have hrun : runningCommand i.engine x.latch = some i := by
    rw [h.latch]
    exact runningCommand_latchOperands i x₀.latch
  exact count_pos_of_running hrun hwf (h.busy hbusy) hpay

/-- Acceptance puts a command under way. -/
theorem UnderWay.accepted (h : x₀.ReadyFor i) : UnderWay i x₀ [] (x₀.accept i (firstRow i).1) where
  toWithinRun := .accepted h
  payload := by simp [(firstRow_label i).2.2.1]
  budgetOk := (x₀.accept_arrivedAt i _).budgetOk

/-- A row keeps its command under way, or ends it. -/
theorem UnderWay.row {r : Row} (h : UnderWay i x₀ evs x) (hwf : i.wellFormed = true)
    (hlabel : labelOpcode x.mpc = some i.opcode) (hrow : x.row = some r) :
    UnderWay i x₀ (evs ++ (r.event i.engine x).toList) (r.engine i.engine x) ∧
      (payloadAt (r.engine i.engine x).mpc = true → 0 < x.latch.n.toNat) := by
  have hwithin := h.toWithinRun.row hlabel hrow i.engine
  have hlatch := (r.engine_sameCommand i.engine x).latch
  have hn : payloadAt (r.engine i.engine x).mpc = true → 0 < x.latch.n.toNat := by
    rw [← hlatch]
    exact hwithin.count_pos hwf
  have hf := Engine.row_fits hrow
  refine ⟨⟨hwithin, fun hpay => ?_, Row.engine_budget hf h.budgetOk⟩, hn⟩
  rw [hlatch]
  exact Row.engine_payload hf hn h.payload hpay

/-- A turn of a command under way runs the row at its label (40_sequencer R111). -/
theorem UnderWay.turn {s : State} (h : UnderWay i x₀ evs (s.engine i.engine))
    (hb : (s.engine i.engine).status.busy = true) :
    ∃ r, labelOpcode (s.engine i.engine).mpc = some i.opcode ∧ (s.engine i.engine).row = some r ∧
      sequencerTurn i.engine s = .next (s.afterRow i.engine r) := by
  have hlabel := h.busy hb
  obtain ⟨r, hrow⟩ := Engine.row_isSome (x := s.engine i.engine) (by intro hidle; simp [hidle, labelOpcode] at hlabel)
  exact ⟨r, hlabel, hrow, (h.toWithinRun.turn hb).trans
    (exec_next_of_row rfl hlabel hrow (Row.indexed_inBuf (Engine.row_fits hrow) h.payload))⟩

/-- A command under way ends within the turns that are left. -/
theorem UnderWay.ends (hwf : i.wellFormed = true) (hbudget : ∀ site, (Config.timeoutBudget site).toNat ≤ b) {m : Nat}
    {s : State} (h : UnderWay i x₀ evs (s.engine i.engine)) (hbusy : (s.engine i.engine).status.busy = true)
    (hm : (s.engine i.engine).turnsLeft b ≤ m) :
    ∃ k t, k ≤ m ∧ sequencerRun i.engine k s = .next t ∧ (t.engine i.engine).Idle ∧
      (t.engine i.engine).status.valid = true := by
  induction m generalizing evs s with
  | zero =>
    have hpos := h.budgetOk.rowTurns_pos
    unfold Engine.turnsLeft at hm
    omega
  | succ m ih =>
    obtain ⟨r, hlabel, hrow, hturn⟩ := h.turn hbusy
    obtain ⟨hafter, hn⟩ := h.row hwf hlabel hrow
    have hengine := s.engine_afterRow i.engine r
    cases hfin : r.op.finishes
    · have hlt := Row.turnsLeft_lt hrow hfin h.budgetOk h.payload hn hbudget
      obtain ⟨k, t, hk, hrun, hended⟩ := ih (s := s.afterRow i.engine r) (by rw [hengine]; exact hafter)
        (by rw [hengine, (r.engine_unfinished _ _ hfin).2.1, hbusy]) (by rw [hengine]; omega)
      exact ⟨k + 1, t, Nat.succ_le_succ hk, by simpa only [sequencerRun, hturn] using hrun, hended⟩
    · obtain ⟨hidle, hvalid, hmpc, _⟩ := r.engine_finished i.engine (s.engine i.engine) hfin
      refine ⟨1, s.afterRow i.engine r, Nat.succ_le_succ m.zero_le, by simp only [sequencerRun, hturn], ?_⟩
      rw [hengine]
      exact ⟨⟨hidle, hmpc⟩, hvalid⟩

end

/-- Settles O35: each row leaves a command fewer turns, and at acceptance the bound of R117 is left. -/
theorem everyCommandFinishesWithinBound : Obligations.EveryCommandFinishesWithinBound := by
  intro i s b hready hwf hbudget
  have haccept : exec i s = .next (s.setEngine i.engine ((s.engine i.engine).accept i (firstRow i).1)) :=
    exec_next_iff.2 ⟨_, _, .accepted hready.2.1.2 hwf, rfl⟩
  have hbound : ((s.engine i.engine).accept i (firstRow i).1).turnsLeft b ≤ stepBound b i := by
    refine ((s.engine i.engine).accept_arrivedAt i _).turnsLeft_le hbudget |>.trans ?_
    rw [Engine.accept_latch, turnsOf_firstRow]
  obtain ⟨k, t, hk, hrun, hended⟩ := UnderWay.ends hwf hbudget (evs := []) (x₀ := s.engine i.engine)
    (s := s.setEngine i.engine ((s.engine i.engine).accept i (firstRow i).1))
    (m := stepBound b i) (by rw [State.engine_setEngine]; exact .accepted hready)
    (by rw [State.engine_setEngine, Engine.accept_status]) (by rw [State.engine_setEngine]; exact hbound)
  exact ⟨k, t, hk, by simpa only [commandRun, haccept] using hrun, hended⟩

end Sys2Proof.Machine
end

section
/-! When an I2C command emits I2C_STOP (O42): by the stages of a read, and never in another command (41_i2c R133). -/

namespace Sys2Proof.Machine

/-- The trace holds one I2C_STOP, with no reception after it. -/
def StoppedOnce (evs : List Event) : Prop :=
  ∃ before rest, evs = before ++ .i2cStop :: rest ∧ .i2cStop ∉ before ∧ .i2cStop ∉ rest ∧ receivedBytes rest = []

/-- The trace of an I2C_READ with the outcome `oc` holds an I2C_STOP where the payload was complete, and none otherwise
(41_i2c R133, 40_sequencer R118). -/
def StopsBy (evs : List Event) (oc : OutcomeCode) : Prop :=
  (.i2cStop ∉ evs ∧ oc ≠ .success ∧ oc ≠ .stopPhaseTimeout) ∨
    (StoppedOnce evs ∧ (oc = .success ∨ oc = .stopPhaseTimeout))

/-- What an I2C_READ has to do with I2C_STOP, by its label (41_i2c R141). -/
def ReadStops (evs : List Event) (l : Label) (x : Engine) : Prop :=
  match l with
  | .rd8 | .rd9 | .rd10 => StoppedOnce evs
  | .rdFail => StopsBy evs x.fail.oc
  | .idle => StopsBy evs x.result.outcome
  | _ => .i2cStop ∉ evs

section
variable {i : Instr} {dev : BitVec 7} {reg n : BitVec 8} {evs evs' : List Event} {oc : OutcomeCode} {x x₀ : Engine}
  {r : Row} {s t : State}

/-- Only RD7 emits I2C_STOP (41_i2c R141). -/
theorem Engine.row_stop (h : x.row = some r) (hm : x.mpc ≠ .rd7) (e : EngineId) :
    .i2cStop ∉ (r.event e x).toList := by
  cases hl : x.mpc <;> simp only [Engine.row, hl, reduceCtorEq, Option.some.injEq] at h <;> subst h <;>
    simp [Row.event, MicroOp.event]
  exact hm hl

theorem stop_notMem_append (h : Event.i2cStop ∉ evs) (h' : Event.i2cStop ∉ evs') : Event.i2cStop ∉ evs ++ evs' := by
  simp [h, h']

theorem StoppedOnce.append (h : StoppedOnce evs) (hstop : .i2cStop ∉ evs') (hnone : receivedBytes evs' = []) :
    StoppedOnce (evs ++ evs') := by
  obtain ⟨before, rest, rfl, hbefore, hrest, hreceived⟩ := h
  exact ⟨before, rest ++ evs', by simp, hbefore, stop_notMem_append hrest hstop,
    by rw [receivedBytes_append, hreceived, hnone]; rfl⟩

theorem StoppedOnce.count (h : StoppedOnce evs) : evs.count .i2cStop = 1 := by
  obtain ⟨before, rest, rfl, hbefore, hrest, _⟩ := h
  simp [List.count_eq_zero_of_not_mem hbefore, List.count_eq_zero_of_not_mem hrest]

/-- The one I2C_STOP parts the trace in one way. -/
theorem StoppedOnce.parts {before rest : List Event} (h : StoppedOnce (before ++ .i2cStop :: rest)) :
    receivedBytes (before ++ .i2cStop :: rest) = receivedBytes before ∧ receivedBytes rest = [] := by
  obtain ⟨before', rest', hevs, hbefore, hrest, hreceived⟩ := h
  obtain ⟨rfl, _, rfl⟩ := (List.append_cons_inj_of_notMem hbefore hrest).1 hevs.symm
  refine ⟨?_, hreceived⟩
  rw [receivedBytes_append, show receivedBytes (.i2cStop :: rest') = receivedBytes rest' from rfl, hreceived,
    List.append_nil]

theorem StopsBy.mem_iff (h : StopsBy evs oc) : .i2cStop ∈ evs ↔ oc = .success ∨ oc = .stopPhaseTimeout := by
  obtain ⟨hnone, hsuccess, hstop⟩ | ⟨honce, hoc⟩ := h
  · simp [hnone, hsuccess, hstop]
  · exact ⟨fun _ => hoc, fun _ => List.count_pos_iff.1 (by rw [honce.count]; exact Nat.one_pos)⟩

theorem StopsBy.count_le (h : StopsBy evs oc) : evs.count .i2cStop ≤ 1 := by
  obtain ⟨hnone, _⟩ | ⟨honce, _⟩ := h
  · simp [List.count_eq_zero_of_not_mem hnone]
  · exact honce.count.le

theorem StopsBy.stoppedOnce (h : StopsBy evs oc) (hmem : .i2cStop ∈ evs) : StoppedOnce evs := by
  obtain ⟨hnone, _⟩ | ⟨honce, _⟩ := h
  · exact absurd hmem hnone
  · exact honce

/-- Each row of I2C_READ takes it one stage on. -/
theorem ReadStops.row (h : ReadStops evs x.mpc x) (hlabel : labelOpcode x.mpc = some 0x2) (hrow : x.row = some r) :
    ReadStops (evs ++ (r.event .i2ce x).toList) (r.engine .i2ce x).mpc (r.engine .i2ce x) := by
  have hstop := fun hm => Engine.row_stop hrow hm .i2ce
  cases hm : x.mpc <;> simp [hm, labelOpcode] at hlabel <;> rw [hm] at h hstop <;>
    simp only [Engine.row, hm, Option.some.injEq] at hrow
  case rd0 | rd2 | rd4 =>
    subst hrow
    exact stop_notMem_append h (hstop nofun)
  case rd1 | rd3 | rd5 =>
    have hnone := stop_notMem_append h (hstop nofun)
    obtain ⟨_, _, _, ⟨hmpc, _⟩ | ⟨hmpc, hfail⟩ | hmpc⟩ := Row.i2c_wait_cases (x := x) hrow <;> rw [hmpc]
    · exact hnone
    · rw [ReadStops, hfail]
      exact .inl ⟨hnone, nofun, nofun⟩
    · rw [hm]
      exact hnone
  case rd6 =>
    have hnone := stop_notMem_append h (hstop nofun)
    have hop : r.op = .store Event.i2cRx .rd5 .rd7 := by rw [← hrow]
    rw [(Row.engine_advance (e := .i2ce) (x := x) (by rw [← hrow]) (.inl ⟨_, hop⟩)).1.mpc]
    split <;> exact hnone
  case rd7 =>
    subst hrow
    exact ⟨evs, [], rfl, h, List.not_mem_nil, rfl⟩
  case rd8 =>
    obtain ⟨_, _, hreceived, ⟨hmpc, _⟩ | ⟨hmpc, hfail⟩ | hmpc⟩ := Row.i2c_wait_cases (x := x) hrow <;> rw [hmpc]
    · exact h.append (hstop nofun) hreceived
    · rw [ReadStops, hfail]
      exact .inr ⟨h.append (hstop nofun) hreceived, .inr rfl⟩
    · rw [hm]
      exact h.append (hstop nofun) hreceived
  case rd9 =>
    subst hrow
    exact h.append (hstop nofun) rfl
  case rd10 =>
    subst hrow
    exact .inr ⟨h.append (hstop nofun) rfl, .inl rfl⟩
  case rdFail =>
    subst hrow
    exact (List.append_nil evs).symm ▸ h

theorem ReadStops.keptByRows : KeptByRows (.i2cRead dev reg n) x₀ fun evs u => ReadStops evs u.i2c.mpc u.i2c :=
  fun _ _ _ h _ hlabel hrow => h.row hlabel hrow

/-- An I2C_READ that ends has emitted I2C_STOP as its outcome says. -/
theorem CommandEnded.i2cRead_stops (h : CommandEnded (.i2cRead dev reg n) s t) :
    StopsBy (newEvents .i2ce s t) t.i2c.result.outcome := by
  obtain ⟨hended, hidle⟩ := h.induction (P := fun evs u => ReadStops evs u.i2c.mpc u.i2c)
    (by simp [ReadStops, Instr.engine, firstRow]) ReadStops.keptByRows
  simp only [Instr.engine, State.engine_i2ce] at hidle
  rw [hidle] at hended
  exact hended

/-- A read whose payload was complete received all its bytes (41_i2c R137). -/
theorem ReadEnds.all_of_complete {got : Nat} {res : BitVec 8} (h : ReadEnds n got oc res)
    (hoc : oc = .success ∨ oc = .stopPhaseTimeout) : got = n.toNat := by
  cases h with
  | success all => exact all
  | stop all => exact all
  | address _ => simp at hoc
  | data _ _ _ => simp at hoc

/-- The opcode 0x2 is I2C_READ's (30_encoding R95). -/
theorem eq_i2cRead_of_opcode (hi : i.opcode = 0x2) : ∃ dev reg n, i = .i2cRead dev reg n := by
  cases i with
  | i2cRead dev reg n => exact ⟨dev, reg, n, rfl⟩
  | _ => simp [Instr.opcode] at hi

/-- No other command emits I2C_STOP. -/
theorem CommandEnded.no_stop (h : CommandEnded i s t) (hi : i.opcode ≠ 0x2) : .i2cStop ∉ newEvents i.engine s t := by
  refine (h.induction (P := fun evs _ => .i2cStop ∉ evs) List.not_mem_nil ?_).1
  intro evs u r hevs _ hlabel hrow
  refine stop_notMem_append hevs (Engine.row_stop hrow (fun hm => hi ?_) i.engine)
  rw [hm] at hlabel
  exact (Option.some.inj hlabel).symm

end

/-- Settles O42: a read stops as its outcome says, after all its receptions; no other I2C command stops. -/
theorem stopIsIssuedOnlyAfterTheLastByteRead : Obligations.StopIsIssuedOnlyAfterTheLastByteRead := by
  refine ⟨fun i s t he h => ?_, fun dev reg n s t before rest h hevs => ?_⟩
  · by_cases hi : i.opcode = 0x2
    · obtain ⟨dev, reg, n, rfl⟩ := eq_i2cRead_of_opcode hi
      have hstops := h.i2cRead_stops
      exact ⟨by rw [hstops.mem_iff]; exact ⟨fun hoc => ⟨hi, hoc⟩, fun hoc => hoc.2⟩, hstops.count_le⟩
    · have hnone := h.no_stop hi
      rw [he] at hnone
      exact ⟨⟨fun hmem => absurd hmem hnone, fun hread => absurd hread.1 hi⟩,
        by simp [List.count_eq_zero_of_not_mem hnone]⟩
  · have hstops := h.i2cRead_stops
    obtain ⟨hends, _⟩ := h.i2cRead_stores
    have hmem : .i2cStop ∈ newEvents .i2ce s t := by simp [hevs]
    have hoc := hstops.mem_iff.1 hmem
    have honce := hstops.stoppedOnce hmem
    rw [hevs] at honce hends
    obtain ⟨hreceived, hrest⟩ := honce.parts
    refine ⟨?_, hrest⟩
    rw [← hreceived]
    exact hends.all_of_complete hoc

end Sys2Proof.Machine
end

section
/-! A wait within its budget (O17): each poll that returns 0 takes one off the budget, the last one fails, and a 1 ends
the wait (40_sequencer R112, R113). -/

namespace Sys2Proof.Machine

/-- The answer a poll takes where the environment has one ready (00_scope R15). -/
theorem Environment.drawFlag_cons {v : Environment} {a : Bool} {fs : List Bool} (h : v.flags = a :: fs) (e : EngineId) :
    v.drawFlag e = (a, { v with flags := fs }) := by
  simp [Environment.drawFlag, h]

section
variable {e : EngineId} {x : Engine} {r : Row} {poll : Bool → Event} {site : Site} {res : BitVec 8}
  {next failLabel : Label} {a : Bool} {fs : List Bool}

/-- One poll joins the trace and takes one answer (40_sequencer R112). -/
theorem Row.engine_polled (hop : r.op = .await poll site res next failLabel) (hfs : x.env.flags = a :: fs) :
    (r.engine e x).trace = x.trace ++ [poll a] ∧ (r.engine e x).env.flags = fs := by
  refine ⟨?_, ?_⟩
  · rw [Row.engine_trace, Row.event, hop, Row.before_eq]
    simp [MicroOp.event, Environment.drawFlag_cons hfs]
  · rw [Row.engine, Row.after_eq, hop, Row.before_eq]
    simp only [MicroOp.engine, Environment.drawFlag_cons hfs, Engine.polled]
    split <;> simp

/-- A poll that returned 0 with more polls in the budget leaves the wait where it is (40_sequencer R112). -/
theorem Row.engine_missed (hop : r.op = .await poll site res next failLabel) (hfs : x.env.flags = false :: fs)
    (hb : 1 < x.budget.toNat) : (r.engine e x).mpc = x.mpc ∧ (r.engine e x).budget.toNat = x.budget.toNat - 1 := by
  have hengine : r.op.engine e (r.before x) =
      ((r.before x).polled e poll).missedPoll (siteOutcome site) site res failLabel := by
    rw [hop, MicroOp.engine, Row.before_eq]
    simp [Environment.drawFlag_cons hfs]
  have hbudget : ((r.before x).polled e poll).budget = x.budget := by rw [Engine.polled, Row.before_eq]
  obtain ⟨hle, _⟩ | ⟨_, hmissed, hcount⟩ :=
    missedPoll_cases (siteOutcome site) site res failLabel ((r.before x).polled e poll)
  · rw [hbudget] at hle
    omega
  · rw [hbudget] at hcount
    simp only [Row.engine, Row.after_eq, hengine, hmissed]
    exact ⟨by rw [Engine.polled, Row.before_eq], by rw [hbudget]; exact hcount⟩

/-- The last poll of the budget, returning 0, fails the wait (40_sequencer R112). -/
theorem Row.engine_failed (hop : r.op = .await poll site res next failLabel) (hfs : x.env.flags = false :: fs)
    (hb : x.budget.toNat ≤ 1) :
    (r.engine e x).mpc = failLabel ∧ (r.engine e x).fail = ⟨siteOutcome site, some site, res⟩ := by
  obtain ⟨hv, _⟩ | ⟨_, hat, hfail⟩ | ⟨_, _, hlt, _⟩ := Row.engine_await (e := e) (x := x) hop
  · simp [Environment.drawFlag_cons hfs] at hv
  · exact ⟨hat.mpc, hfail⟩
  · omega

/-- The table of waits has each wait as its row does (41_i2c R141, R142, 42_spi R191-R193). -/
theorem Engine.row_of_waitRow {w : WaitRow} (hw : waitRow x.mpc = some w) :
    ∃ r site res, x.row = some r ∧ r.op = .await w.poll site res w.next w.failLabel := by
  cases hm : x.mpc <;> simp only [hm, waitRow, reduceCtorEq, Option.some.injEq] at hw <;> subst hw <;>
    exact ⟨_, _, _, by rw [Engine.row, hm], rfl⟩

/-- At a wait an engine is busy (10_state R24, R37). -/
theorem EngineInv.busy_of_await (h : EngineInv e x) (hsite : awaitSite x.mpc = some site) : x.status.busy = true := by
  by_contra hb
  rw [h.idle (by simpa using hb)] at hsite
  cases hsite

end

/-- An engine at the wait `w` of a site, with the poll answers `fs` ready. -/
structure AtWait (e : EngineId) (site : Site) (w : WaitRow) (fs : List Bool) (x : Engine) : Prop where
  inv : EngineInv e x
  cmdWhileBusy : x.faults.cmdWhileBusy = false
  site : awaitSite x.mpc = some site
  row : waitRow x.mpc = some w
  flags : x.env.flags = fs

section
variable {e : EngineId} {site : Site} {w : WaitRow} {a : Bool} {fs : List Bool} {s t : State}

/-- A turn at a wait is the row of that wait (40_sequencer R111). -/
theorem AtWait.turn (h : AtWait e site w fs (s.engine e)) :
    ∃ r res, (s.engine e).row = some r ∧ r.op = .await w.poll site res w.next w.failLabel ∧
      sequencerTurn e s = .next (s.afterRow e r) := by
  obtain ⟨r, site', res, hrow, hop⟩ := Engine.row_of_waitRow h.row
  obtain rfl : site' = site := by
    have hfits := Engine.row_fits hrow
    simp only [Row.Fits, hop] at hfits
    exact Option.some.inj (hfits.1.symm.trans h.site)
  have hbusy := h.inv.busy_of_await h.site
  obtain ⟨i, hrun, _, _, hlabel⟩ := h.inv.running hbusy
  obtain rfl := runningCommand_engine hrun
  refine ⟨r, res, hrow, hop, ?_⟩
  rw [← exec_next_of_row rfl hlabel hrow (by simp [hop, MicroOp.indexed])]
  simp [sequencerTurn, h.cmdWhileBusy, hbusy, hrun]

/-- A 0 with more polls in the budget: the wait stays, with one poll less. -/
theorem AtWait.miss (h : AtWait e site w (false :: fs) (s.engine e)) (hb : 1 < (s.engine e).budget.toNat) :
    ∃ t, sequencerTurn e s = .next t ∧ AtWait e site w fs (t.engine e) ∧ (t.engine e).mpc = (s.engine e).mpc ∧
      (t.engine e).budget.toNat = (s.engine e).budget.toNat - 1 ∧
      (t.engine e).trace = (s.engine e).trace ++ [w.poll false] := by
  obtain ⟨r, res, hrow, hop, hturn⟩ := h.turn
  obtain ⟨htrace, hflags⟩ := Row.engine_polled (e := e) hop h.flags
  obtain ⟨hmpc, hbudget⟩ := Row.engine_missed (e := e) hop h.flags hb
  have hfaults := (r.engine_sameCommand e (s.engine e)).faults
  refine ⟨_, hturn, ?_⟩
  rw [State.engine_afterRow]
  exact ⟨⟨h.inv.ran (h.inv.busy_of_await h.site) hrow, by rw [hfaults, h.cmdWhileBusy], by rw [hmpc, h.site],
    by rw [hmpc, h.row], hflags⟩, hmpc, hbudget, htrace⟩

/-- While every poll returns 0 a wait stays for as many polls as are below its budget. -/
theorem AtWait.misses {j : Nat} (h : AtWait e site w (List.replicate j false ++ fs) (s.engine e))
    (hj : j < (s.engine e).budget.toNat) :
    ∃ t, sequencerRun e j s = .next t ∧ AtWait e site w fs (t.engine e) ∧ (t.engine e).mpc = (s.engine e).mpc ∧
      (t.engine e).budget.toNat = (s.engine e).budget.toNat - j ∧
      (t.engine e).trace = (s.engine e).trace ++ List.replicate j (w.poll false) := by
  induction j generalizing s with
  | zero => exact ⟨s, rfl, h, rfl, rfl, by simp⟩
  | succ j ih =>
    obtain ⟨u, hturn, hu, hmpc, hbudget, htrace⟩ := AtWait.miss (fs := List.replicate j false ++ fs) h (by omega)
    obtain ⟨t, hrun, ht, hmpc', hbudget', htrace'⟩ := ih hu (by omega)
    refine ⟨t, by simpa only [sequencerRun, hturn] using hrun, ht, hmpc'.trans hmpc, by omega, ?_⟩
    rw [htrace', htrace, List.append_assoc, List.replicate_succ, List.singleton_append]

/-- A 1 ends the wait at its success label. -/
theorem AtWait.answered (h : AtWait e site w (true :: fs) (s.engine e)) :
    ∃ t, sequencerTurn e s = .next t ∧ (t.engine e).mpc = w.next ∧
      (t.engine e).trace = (s.engine e).trace ++ [w.poll true] := by
  obtain ⟨r, res, hrow, hop, hturn⟩ := h.turn
  obtain ⟨htrace, _⟩ := Row.engine_polled (e := e) hop h.flags
  obtain ⟨hmpc, _⟩ := Row.engine_answered (e := e) hop h.flags
  refine ⟨_, hturn, ?_⟩
  rw [State.engine_afterRow]
  exact ⟨hmpc, htrace⟩

/-- A 0 at the last poll of the budget ends the wait at its failure label, with its site and outcome recorded. -/
theorem AtWait.failed (h : AtWait e site w (false :: fs) (s.engine e)) (hb : (s.engine e).budget.toNat ≤ 1) :
    ∃ t, sequencerTurn e s = .next t ∧ (t.engine e).mpc = w.failLabel ∧
      (t.engine e).trace = (s.engine e).trace ++ [w.poll false] ∧ (t.engine e).fail.site = some site ∧
      (t.engine e).fail.oc = siteOutcome site := by
  obtain ⟨r, res, hrow, hop, hturn⟩ := h.turn
  obtain ⟨htrace, _⟩ := Row.engine_polled (e := e) hop h.flags
  obtain ⟨hmpc, hfail⟩ := Row.engine_failed (e := e) hop h.flags hb
  refine ⟨_, hturn, ?_⟩
  rw [State.engine_afterRow, hfail]
  exact ⟨hmpc, htrace, rfl, rfl⟩

/-- A run and then one turn. -/
theorem sequencerRun_turn {j : Nat} {u : State} (h : sequencerRun e j s = .next u)
    (hturn : sequencerTurn e u = .next t) : sequencerRun e (j + 1) s = .next t := by
  rw [sequencerRun_add h]
  simp only [sequencerRun, hturn]

theorem newEvents_of_trace {evs : List Event} (h : (t.engine e).trace = (s.engine e).trace ++ evs) :
    newEvents e s t = evs := by
  rw [newEvents, h, List.drop_left]

end

/-- Settles O17: a wait stays through the 0s below its budget, and the next poll ends it. -/
theorem waitEndsWithinItsBudget : Obligations.WaitEndsWithinItsBudget := by
  intro s e site w rest hinv hfaults hsite hrow
  have hwait : ∀ {fs}, (s.engine e).env.flags = fs → AtWait e site w fs (s.engine e) := fun hflags =>
    ⟨hinv, by rw [hfaults]; rfl, hsite, hrow, hflags⟩
  refine ⟨fun j hj hflags => ?_, fun j hj hflags => ?_, fun hflags => ?_⟩
  · obtain ⟨t, hrun, _, hmpc, _, htrace⟩ := (hwait hflags).misses hj
    exact ⟨t, hrun, hmpc, newEvents_of_trace htrace⟩
  · obtain ⟨u, hrun, hu, _, _, htrace⟩ := (hwait hflags).misses hj
    obtain ⟨t, hturn, hmpc, htrace'⟩ := hu.answered
    exact ⟨t, sequencerRun_turn hrun hturn, hmpc, newEvents_of_trace (by rw [htrace', htrace, List.append_assoc])⟩
  · obtain ⟨hpos, _⟩ := hinv.budget site hsite
    obtain ⟨j, hj⟩ : ∃ j, (s.engine e).budget.toNat = j + 1 := ⟨_, (Nat.sub_add_cancel hpos).symm⟩
    rw [hj, List.replicate_succ', List.append_assoc] at hflags
    obtain ⟨u, hrun, hu, _, hbudget, htrace⟩ := (hwait hflags).misses (by omega)
    obtain ⟨t, hturn, hmpc, htrace', hrecord⟩ := hu.failed (by omega)
    rw [hj]
    refine ⟨t, sequencerRun_turn hrun hturn, hmpc, newEvents_of_trace ?_, hrecord⟩
    rw [htrace', htrace, List.append_assoc, List.replicate_succ']

end Sys2Proof.Machine
end

section
/-! Command writes to an idle engine (O5) and to a busy one (O9). -/

namespace Sys2Proof.Machine

/-- A fixed host turn takes the host's next access (20_memory R80, logs 3, 5). -/
theorem step_host {s : State} {turns : List Agent} {op : HostOp} {ops : List HostOp} (hturns : s.turns = .host :: turns)
    (hops : s.hostOps = op :: ops) : step s = hostAction op { s with turns := turns, hostOps := ops } := by
  simp only [step, nextTurn, hturns, agentTurn, hostTurn, hops]

/-- The engines do not see the lists of turns and accesses. -/
theorem engine_withLists (s : State) (e : EngineId) (turns : List Agent) (ops : List HostOp) :
    State.engine { s with turns := turns, hostOps := ops } e = s.engine e := by
  cases e <;> rfl

/-- Settles O5: the step is the host's write, and CMD of an idle engine takes the command. -/
theorem commandWriteStepRunsDecodedCommand : Obligations.CommandWriteStepRunsDecodedCommand := by
  intro s e w i turns ops hturns hops hbusy hf hdecode
  rw [step_host hturns hops]
  show memWrite e 0x000 .four w _ = _
  rw [memWrite_cmd (by rw [engine_withLists]; exact hf), writeCmd, engine_withLists, hbusy, hdecode]
  rfl

/-- A command write while BUSY = 1 records CmdWhileBusy, and no other fault goes or comes (60_exceptions R230). -/
theorem commandWhileBusy_faults (e : EngineId) (s : State) :
    ((commandWhileBusy e s).engine e).faults = (s.engine e).faults.record .cmdWhileBusy := by
  obtain ⟨hfaults, _⟩ := unspecify_frame e (s.onEngine e (Engine.raise .cmdWhileBusy))
  rw [commandWhileBusy, State.engine_onEngine, hfaults, State.engine_onEngine, Engine.raise_faults]

/-- Settles O9: the write of any word is `commandWhileBusy`. -/
theorem commandWriteWhileBusyFaults : Obligations.CommandWriteWhileBusyFaults := by
  intro s e w hbusy hf
  have hwrite : ∀ v, memWrite e 0x000 .four v s = .next (commandWhileBusy e s) := fun v => by
    rw [memWrite_cmd hf, writeCmd, if_pos hbusy]
  exact ⟨_, hwrite w, commandWhileBusy_faults e s, by rw [commandWhileBusy, State.engine_onEngine],
    (commandWhileBusy_actsOn e s).others, hwrite⟩

end Sys2Proof.Machine
end

section
/-! How a failed I2C_READ leaves BUF (O39), from how reads end (`ReadEnds`) and what they lay over BUF. -/

namespace Sys2Proof.Machine

section
variable {n : BitVec 8} {got : Nat} {res : BitVec 8}

theorem ReadEnds.of_address (h : ReadEnds n got .addressPhaseTimeout res) : got = 0 := by
  cases h
  assumption

theorem ReadEnds.of_data (h : ReadEnds n got .dataPhaseTimeout res) : got < n.toNat ∧ res.toNat = n.toNat - got := by
  cases h
  exact ⟨‹_›, ‹_›⟩

theorem ReadEnds.of_stop (h : ReadEnds n got .stopPhaseTimeout res) : got = n.toNat ∧ res = 0 := by
  cases h
  exact ⟨‹_›, rfl⟩

end

/-- Settles O39: the bytes received are laid over BUF, and the outcome says how many they are; a write stores none. -/
theorem i2cBufferOnFailure : Obligations.I2cBufferOnFailure := by
  refine ⟨fun dev reg n s t h => ?_, fun dev reg n s t h => h.i2cWrite_sends.2⟩
  obtain ⟨hends, hbuf⟩ := h.i2cRead_stores
  refine ⟨fun hoc k => ?_, fun hoc => ?_, fun hoc => ?_⟩ <;> rw [hoc] at hends
  · rw [hbuf]
    exact overlaid_of_ge _ (by rw [hends.of_address]; exact k.zero_le)
  · obtain ⟨hshort, hleft⟩ := hends.of_data
    refine ⟨hshort, hleft, fun k hk => ?_, fun k hk => ?_⟩ <;> rw [hbuf]
    · exact overlaid_of_lt _ hk
    · exact overlaid_of_ge _ hk
  · obtain ⟨hall, hres⟩ := hends.of_stop
    refine ⟨hall, hres, fun k hk => ?_⟩
    rw [hbuf]
    exact overlaid_of_lt _ (by rw [hall]; exact hk)

end Sys2Proof.Machine
end

section
/-! STOPF over an I2C transaction (O41): by the stages of I2C_READ and I2C_WRITE (41_i2c R135, R143). -/

namespace Sys2Proof.Machine

/-- The trace neither clears STOPF nor sees it 1. -/
def StopFlagUntouched (evs : List Event) : Prop := .i2cClrStopf ∉ evs ∧ .i2cPoll .stopf true ∉ evs

/-- The trace first sees STOPF 1 just before the events `after`, and does not clear it before (41_i2c R135). -/
def StopSeenBefore (after evs : List Event) : Prop :=
  ∃ before, evs = before ++ .i2cPoll .stopf true :: after ∧ StopFlagUntouched before

/-- What a transaction of I2CE with the outcome `oc` has done to STOPF. -/
def StopFlagBy (evs : List Event) (oc : OutcomeCode) : Prop :=
  (oc = .success ∧ StopSeenBefore [.i2cClrStopf] evs) ∨ (oc ≠ .success ∧ StopFlagUntouched evs)

/-- What a transaction of I2CE has done to STOPF, by its label (41_i2c R141, R142). -/
def StopFlagAt (evs : List Event) (l : Label) (x : Engine) : Prop :=
  match l with
  | .rd9 | .wr6 => StopSeenBefore [] evs
  | .rd10 | .wr7 => StopSeenBefore [.i2cClrStopf] evs
  | .rdFail | .wrFail => x.fail.oc ≠ .success ∧ StopFlagUntouched evs
  | .idle => StopFlagBy evs x.result.outcome
  | _ => StopFlagUntouched evs

section
variable {i : Instr} {evs evs' : List Event} {x x₀ : Engine} {r : Row} {s t : State}

theorem StopFlagUntouched.append (h : StopFlagUntouched evs) (h' : StopFlagUntouched evs') :
    StopFlagUntouched (evs ++ evs') := by
  obtain ⟨hclear, hseen⟩ := h
  obtain ⟨hclear', hseen'⟩ := h'
  exact ⟨by simp [hclear, hclear'], by simp [hseen, hseen']⟩

/-- A row that neither polls STOPF nor clears it. -/
theorem Engine.row_stopFlagUntouched (h : x.row = some r) (hm : x.mpc ∉ [.rd8, .rd9, .wr5, .wr6]) (e : EngineId) :
    StopFlagUntouched (r.event e x).toList := by
  cases hl : x.mpc <;> simp [hl] at hm <;>
    simp only [Engine.row, hl, reduceCtorEq, Option.some.injEq] at h <;> subst h <;>
    simp [StopFlagUntouched, Row.event, MicroOp.event]

/-- No wait fails with Success (60_exceptions R222). -/
theorem siteOutcome_ne_success (site : Site) : siteOutcome site ≠ .success := by
  cases site <;> exact nofun

/-- A wait whose poll returned 1 goes on; one whose poll returned 0 stays, or fails, and not with Success
(40_sequencer R112). -/
theorem Row.i2c_poll_cases {f : I2cFlag} {site : Site} {res : BitVec 8} {next failLabel : Label}
    (hop : r.op = .await (.i2cPoll f) site res next failLabel) :
    (r.event .i2ce x = some (.i2cPoll f true) ∧ (r.engine .i2ce x).mpc = next) ∨
      (r.event .i2ce x = some (.i2cPoll f false) ∧
        (((r.engine .i2ce x).mpc = failLabel ∧ (r.engine .i2ce x).fail.oc ≠ .success) ∨
          (r.engine .i2ce x).mpc = x.mpc)) := by
  have hevent : r.event .i2ce x = some (.i2cPoll f (x.env.drawFlag .i2ce).1) := by
    simp [Row.event, MicroOp.event, hop, Row.before_eq]
  obtain ⟨hv, hat, _⟩ | ⟨hv, hat, hfail⟩ | ⟨hv, hmpc, _⟩ := Row.engine_await (e := .i2ce) (x := x) hop <;>
    rw [hevent, hv]
  · exact .inl ⟨rfl, hat.mpc⟩
  · exact .inr ⟨rfl, .inl ⟨hat.mpc, by rw [hfail]; exact siteOutcome_ne_success site⟩⟩
  · exact .inr ⟨rfl, .inr hmpc⟩

/-- A poll of STOPF that returned 0 leaves STOPF as it was. -/
theorem StopFlagUntouched.missed (h : StopFlagUntouched evs) :
    StopFlagUntouched (evs ++ (some (Event.i2cPoll .stopf false)).toList) :=
  h.append (by simp [StopFlagUntouched])

/-- Each row of a transaction of I2CE takes it one stage on. -/
theorem StopFlagAt.row (h : StopFlagAt evs x.mpc x)
    (hlabel : labelOpcode x.mpc = some 0x2 ∨ labelOpcode x.mpc = some 0x3) (hrow : x.row = some r) :
    StopFlagAt (evs ++ (r.event .i2ce x).toList) (r.engine .i2ce x).mpc (r.engine .i2ce x) := by
  have hquiet := fun hm => Engine.row_stopFlagUntouched hrow hm .i2ce
  cases hm : x.mpc <;> simp [hm, labelOpcode] at hlabel <;> rw [hm] at h hquiet <;>
    simp only [Engine.row, hm, Option.some.injEq] at hrow
  case rd0 | rd2 | rd4 | rd7 | wr0 | wr2 =>
    subst hrow
    exact StopFlagUntouched.append h (hquiet (by decide))
  case rd1 | rd3 | rd5 | wr1 | wr3 =>
    have huntouched := StopFlagUntouched.append h (hquiet (by decide))
    have hop := congrArg Row.op hrow.symm
    obtain ⟨_, hmpc⟩ | ⟨_, ⟨hmpc, hfail⟩ | hmpc⟩ := Row.i2c_poll_cases (x := x) hop <;> rw [hmpc]
    · exact huntouched
    · exact ⟨hfail, huntouched⟩
    · rw [hm]
      exact huntouched
  case rd6 =>
    have huntouched := StopFlagUntouched.append h (hquiet (by decide))
    subst hrow
    rw [(Row.engine_advance (e := .i2ce) (x := x) rfl (.inl ⟨_, rfl⟩)).1.mpc]
    split <;> exact huntouched
  case wr4 =>
    have huntouched := StopFlagUntouched.append h (hquiet (by decide))
    subst hrow
    rw [(Row.engine_advance (e := .i2ce) (x := x) rfl (.inr rfl)).1.mpc]
    split <;> exact huntouched
  case rd8 | wr5 =>
    have hop := congrArg Row.op hrow.symm
    obtain ⟨hevent, hmpc⟩ | ⟨hevent, ⟨hmpc, hfail⟩ | hmpc⟩ := Row.i2c_poll_cases (x := x) hop <;> rw [hevent, hmpc]
    · exact ⟨evs, rfl, h⟩
    · exact ⟨hfail, StopFlagUntouched.missed h⟩
    · rw [hm]
      exact StopFlagUntouched.missed h
  case rd9 | wr6 =>
    subst hrow
    obtain ⟨before, rfl, hbefore⟩ := h
    exact ⟨before, List.append_assoc .., hbefore⟩
  case rd10 | wr7 =>
    subst hrow
    exact .inl ⟨rfl, (List.append_nil evs).symm ▸ h⟩
  case rdFail | wrFail =>
    subst hrow
    exact .inr ((List.append_nil evs).symm ▸ h)

/-- The transactions of I2CE are I2C_READ and I2C_WRITE (30_encoding R95). -/
theorem i2c_transaction_opcode (he : i.engine = .i2ce) (htrans : i.isTransaction = true) :
    i.opcode = 0x2 ∨ i.opcode = 0x3 := by
  cases i <;> simp [Instr.engine, Instr.isTransaction, Instr.opcode] at he htrans ⊢

theorem StopFlagAt.accepted (he : i.engine = .i2ce) (htrans : i.isTransaction = true) (x : Engine) :
    StopFlagAt [] (firstRow i).1 x := by
  have huntouched : StopFlagUntouched [] := ⟨List.not_mem_nil, List.not_mem_nil⟩
  cases i <;> simp [Instr.engine, Instr.isTransaction] at he htrans <;> exact huntouched

theorem StopFlagAt.keptByRows (he : i.engine = .i2ce) (htrans : i.isTransaction = true) :
    KeptByRows i x₀ fun evs u => StopFlagAt evs u.i2c.mpc u.i2c := by
  intro evs u r h _ hlabel hrow
  rw [he, State.engine_i2ce] at hlabel hrow
  rw [he]
  refine h.row ?_ hrow
  simpa [hlabel] using i2c_transaction_opcode he htrans

/-- A transaction of I2CE that ends has treated STOPF as its outcome says. -/
theorem CommandEnded.stopFlag (he : i.engine = .i2ce) (htrans : i.isTransaction = true) (h : CommandEnded i s t) :
    StopFlagBy (newEvents .i2ce s t) t.i2c.result.outcome := by
  have hended := h.induction (P := fun evs u => StopFlagAt evs u.i2c.mpc u.i2c)
    (by
      rw [he, State.setEngine_i2ce_i2c, Engine.accept_mpc]
      exact StopFlagAt.accepted he htrans _)
    (StopFlagAt.keptByRows he htrans)
  rw [he, State.engine_i2ce] at hended
  obtain ⟨hstage, hidle⟩ := hended
  rw [hidle] at hstage
  exact hstage

end

/-- Settles O41: by the stages of the two transactions. -/
theorem stopFlagClearedExactlyOnSuccess : Obligations.StopFlagClearedExactlyOnSuccess := by
  intro i s t he htrans h
  obtain ⟨hoc, before, hevs, hclear, hseen⟩ | ⟨hoc, hclear, hseen⟩ := h.stopFlag he htrans
  · exact ⟨fun _ => ⟨before, hevs, hclear, hseen⟩, fun hne => absurd hoc hne⟩
  · exact ⟨fun hsuccess => absurd hsuccess hoc, fun _ => ⟨hclear, hseen⟩⟩

end Sys2Proof.Machine
end

section
/-! The rows of the I2C micro-programs as claims about exec (O10, O11, O12): each kind of row gives its claim, once. -/

namespace Sys2Proof.Machine

/-- The table has the row `row` at the label `l`. -/
def RowAt (l : Label) (row : Engine → Row) : Prop := ∀ x : Engine, Engine.row { x with mpc := l } = some (row x)

/-- A row that sets no phase and assigns nothing else is its operation. -/
theorem Row.plain_engine (op : MicroOp) (e : EngineId) (x : Engine) : (Row.plain op).engine e x = op.engine e x := rfl

theorem Row.plain_event (op : MicroOp) (e : EngineId) (x : Engine) : (Row.plain op).event e x = op.event e x := rfl

/-- The loop test after a row of the loop (41_i2c R141, R142). -/
theorem morePayload_succ {n : BitVec 8} {idx : BitVec 9} (h : idx.toNat < n.toNat) :
    morePayload n (idx + 1#9) = true ↔ idx.toNat + 1 < n.toNat := by
  rw [morePayload_iff, idx_succ_toNat h]

section
variable {i : Instr} {l next again done failLabel : Label} {row : Engine → Row} {also : Engine → Engine} {s : State}

theorem RowAt.exec_eq (h : RowAt l row) (hl : labelOpcode l = some i.opcode) (hm : (s.engine i.engine).mpc = l)
    (hin : (row (s.engine i.engine)).op.indexed = true → (s.engine i.engine).idx.toNat < Config.bufSize) :
    exec i s = .next (s.afterRow i.engine (row (s.engine i.engine))) := by
  have hrow := h (s.engine i.engine)
  rw [← hm] at hrow
  exact exec_next_of_row hm hl hrow hin

/-- An EMIT row (40_sequencer R114). -/
theorem RowAt.emits {ev : Engine → Event} (h : RowAt l row) (hl : labelOpcode l = some i.opcode)
    (hop : ∀ x, (row x).op = .emit (ev x) next) (halso : ∀ x, (row x).after ((row x).before x) = also x) :
    EmitsAt i l ev next (awaitSite next) also := by
  intro s _ hm
  rw [h.exec_eq hl hm (unindexed_inBuf (by rw [hop]; rfl)), State.afterRow, Row.event, Row.engine, hop, ← halso]
  simp only [MicroOp.engine, Engine.goto_loadedBudget, Row.before_eq, Row.after_eq]
  rfl

/-- An AWAIT row (40_sequencer R112). -/
theorem RowAt.awaits {poll : Bool → Event} {oc : OutcomeCode} {site : Site} {res : Engine → BitVec 8}
    (h : RowAt l row) (hl : labelOpcode l = some i.opcode)
    (hop : ∀ x, (row x).op = .await poll site (res x) next failLabel) (hoc : siteOutcome site = oc)
    (halso : ∀ x, (row x).after ((row x).before x) = also x) (hfail : awaitSite failLabel = none) :
    AwaitsAt i l poll oc site res next failLabel (awaitSite next) also := by
  subst hoc
  intro s v env _ hm hb hdraw
  rw [h.exec_eq hl hm (unindexed_inBuf (by rw [hop]; rfl)), State.afterRow, Row.event, Row.engine, hop, ← halso]
  simp only [MicroOp.engine, MicroOp.event, Row.before_eq, Row.after_eq, hdraw, Engine.polled]
  cases v
  · have hlast : (s.engine i.engine).budget.toNat ≤ 1 ↔ (s.engine i.engine).budget.toNat = 1 := by omega
    simp only [Engine.missedPoll, failEntry_eq _ _ _ hfail, hlast, Bool.false_eq_true, if_false]
    split <;> rfl
  · simp only [Engine.goto_loadedBudget]
    rfl

/-- A row that stores the byte it receives (40_sequencer R115). -/
theorem RowAt.stores {ev : Byte → Event} {againSite : Site} (h : RowAt l fun _ => .plain (.store ev again done))
    (hl : labelOpcode l = some i.opcode) (hagain : awaitSite again = some againSite) (hdone : awaitSite done = none) :
    StoresAt i l ev again againSite done := by
  intro s v env _ hm hidx hdraw
  rw [h.exec_eq hl hm fun _ => lt_trans hidx (BitVec.isLt _)]
  simp only [State.afterRow, Row.plain_event, Row.plain_engine, MicroOp.event, MicroOp.engine, hdraw, Engine.received,
    cutByte_byte, Engine.advance_eq, Engine.goto_loadedBudget, Engine.setBuf_latch, Engine.setBuf_idx,
    morePayload_succ hidx]
  split <;> simp only [hagain, hdone] <;> rfl

/-- The row that sends the next byte of BUF, where the host contests none (41_i2c R142). -/
theorem RowAt.sends {againSite doneSite : Site} (h : RowAt l fun _ => .plain (.send again done))
    (hl : labelOpcode l = some i.opcode) (hagain : awaitSite again = some againSite)
    (hdone : awaitSite done = some doneSite) (hcontested : (s.engine i.engine).contested = [])
    (hm : (s.engine i.engine).mpc = l) (hidx : (s.engine i.engine).idx.toNat < (s.engine i.engine).latch.n.toNat) :
    exec i s = .next
      (let x := s.engine i.engine
       let b := x.bufByte i.engine x.idx.toNat
       let more := x.idx.toNat + 1 < x.latch.n.toNat
       (s.applyEvent (.i2cTx b)).setEngine i.engine
         { x with
           trace := x.trace ++ [.i2cTx b]
           idx := x.idx + 1#9
           mpc := if more then again else done
           budget := Config.timeoutBudget (if more then againSite else doneSite) }) := by
  rw [h.exec_eq hl hm fun _ => lt_trans hidx (BitVec.isLt _)]
  simp only [State.afterRow, Row.plain_event, Row.plain_engine, MicroOp.event, MicroOp.engine,
    payloadByte_uncontested hcontested, Engine.advance_eq, Engine.goto_loadedBudget, Engine.append_latch,
    Engine.append_idx, morePayload_succ hidx]
  split <;> simp only [hagain, hdone] <;> rfl

/-- A FINISH row (40_sequencer R116); `init` where it sets STATUS.INIT. -/
theorem RowAt.finishes {res : Engine → Result} {init : Bool} (h : RowAt l fun x => .plain (.finish (res x) init))
    (hl : labelOpcode l = some i.opcode)
    (halso : ∀ x, { x with status := { x.status with init := init || x.status.init } } = also x) :
    FinishesAt i l res also := by
  intro s _ hm
  rw [h.exec_eq hl hm (unindexed_inBuf rfl), ← halso]
  rfl

end

/-- Settles O10: the rows of I2C_INIT, read off the table. -/
theorem i2cInitRunsItsMicroProgram : Obligations.I2cInitRunsItsMicroProgram := by
  refine ⟨?in0, ?in1, ?in2, ?in3, ?in4⟩
  case in4 => exact RowAt.finishes (fun _ => rfl) rfl fun _ => rfl
  all_goals exact RowAt.emits (fun _ => rfl) rfl (fun _ => rfl) fun _ => rfl

/-- Settles O11: the rows of I2C_READ, read off the table. -/
theorem i2cReadRunsItsMicroProgram : Obligations.I2cReadRunsItsMicroProgram := by
  intro dev reg n
  refine ⟨?rd0, ?rd1, ?rd2, ?rd3, ?rd4, ?rd5, ?rd6, ?rd7, ?rd8, ?rd9, ?rd10, ?rdFail⟩
  case rd1 | rd3 | rd5 | rd8 => exact RowAt.awaits (fun _ => rfl) rfl (fun _ => rfl) rfl (fun _ => rfl) rfl
  case rd6 => exact RowAt.stores (fun _ => rfl) rfl rfl rfl
  case rd10 | rdFail => exact RowAt.finishes (fun _ => rfl) rfl fun _ => rfl
  all_goals exact RowAt.emits (fun _ => rfl) rfl (fun _ => rfl) fun _ => rfl

/-- Settles O12: the rows of I2C_WRITE, read off the table; where no byte is contested WR4 sends BUF[idx]. -/
theorem i2cWriteRunsItsMicroProgram : Obligations.I2cWriteRunsItsMicroProgram := by
  intro dev reg n
  refine ⟨?wr0, ?wr1, ?wr2, ?wr3, ?wr4, ?wr5, ?wr6, ?wr7, ?wrFail⟩
  case wr0 =>
    exact RowAt.emits (fun _ => rfl) rfl (fun _ => by rw [← writeLength_eq]; rfl) fun _ => rfl
  case wr1 | wr3 | wr5 => exact RowAt.awaits (fun _ => rfl) rfl (fun _ => rfl) rfl (fun _ => rfl) rfl
  case wr4 =>
    exact fun s _ hcontested hm hidx => RowAt.sends (fun _ => rfl) rfl rfl rfl hcontested hm hidx
  case wr7 | wrFail => exact RowAt.finishes (fun _ => rfl) rfl fun _ => rfl
  all_goals exact RowAt.emits (fun _ => rfl) rfl (fun _ => rfl) fun _ => rfl

end Sys2Proof.Machine
end

section
/-! Commands whose polls are all answered 1: the rows from a label emit a known list of events, one a turn, and end the
command (O36, O49, O50). -/

namespace Sys2Proof.Machine

/-! ### Rows that emit a list of events and end the command -/

/-- The rows from the engine `x` emit `evs`, one each, and the next ends the command with RESULT `res` and STATUS
`st`. -/
inductive EndsEmitting (e : EngineId) (res : Result) (st : Status) : List Event → Engine → Prop
  | finish {x : Engine} {r : Row} (row : x.row = some r) (ends : r.op.finishes = true)
      (result : (r.engine e x).result = res) (status : (r.engine e x).status = st) : EndsEmitting e res st [] x
  | emit {x : Engine} {r : Row} {ev : Event} {evs : List Event} (row : x.row = some r)
      (inBuf : r.op.indexed = true → x.idx.toNat < Config.bufSize) (event : r.event e x = some ev)
      (rest : EndsEmitting e res st evs (r.engine e x)) : EndsEmitting e res st (ev :: evs) x

/-- The CS line after the events of a trace (10_state R56). -/
def CsLevel.afterAll (c : CsLevel) (evs : List Event) : CsLevel := evs.foldl (fun c ev => c.after (some ev)) c

/-- How the run of a command ends: with RESULT `res`, STATUS `st` and the line at `cs`. -/
structure RunEnds (e : EngineId) (res : Result) (st : Status) (cs : CsLevel) (t : State) : Prop where
  idle : (t.engine e).Idle
  result : (t.engine e).result = res
  status : (t.engine e).status = st
  line : t.cs = cs

section
variable {i : Instr} {x₀ : Engine} {pre evs : List Event} {res : Result} {st : Status} {s : State} {r : Row}

/-- Within a run a turn takes the row at the engine's label. -/
theorem WithinRun.turn_row (h : WithinRun i x₀ pre (s.engine i.engine)) (hrow : (s.engine i.engine).row = some r)
    (hin : r.op.indexed = true → (s.engine i.engine).idx.toNat < Config.bufSize) :
    labelOpcode (s.engine i.engine).mpc = some i.opcode ∧ sequencerTurn i.engine s = .next (s.afterRow i.engine r) := by
  have hbusy : (s.engine i.engine).status.busy = true := by
    by_contra hb
    rw [Engine.row, h.idle (by simpa using hb)] at hrow
    cases hrow
  exact ⟨h.busy hbusy, (h.turn hbusy).trans (exec_next_of_row rfl (h.busy hbusy) hrow hin)⟩

/-- A row that ends its command emits nothing and indexes nothing (40_sequencer R116). -/
theorem Row.quiet_of_finishes (h : r.op.finishes = true) (e : EngineId) (x : Engine) :
    r.event e x = none ∧ r.op.indexed = false := by
  unfold Row.event
  cases hop : r.op <;> simp [hop, MicroOp.finishes] at h <;> exact ⟨rfl, rfl⟩

/-- The line after a row is where the row's event leaves it. -/
theorem State.afterRow_cs (s : State) (e : EngineId) (r : Row) :
    (s.afterRow e r).cs = s.cs.after (r.event e (s.engine e)) := by
  rw [State.afterRow, State.setEngine_cs, State.observed_cs]

/-- Such rows run in one turn more than there are events. -/
theorem EndsEmitting.run (h : EndsEmitting i.engine res st evs (s.engine i.engine))
    (hruns : WithinRun i x₀ pre (s.engine i.engine)) :
    ∃ t, sequencerRun i.engine (evs.length + 1) s = .next t ∧ WithinRun i x₀ (pre ++ evs) (t.engine i.engine) ∧
      RunEnds i.engine res st (s.cs.afterAll evs) t := by
  generalize hx : s.engine i.engine = x at h
  induction h generalizing s pre with
  | @finish x r row ends result status =>
    subst hx
    obtain ⟨hnone, hunindexed⟩ := r.quiet_of_finishes ends i.engine (s.engine i.engine)
    obtain ⟨hlabel, hturn⟩ := hruns.turn_row row (unindexed_inBuf hunindexed)
    obtain ⟨hbusy, _, hmpc, _⟩ := r.engine_finished i.engine (s.engine i.engine) ends
    have hafter := hruns.row hlabel row i.engine
    rw [hnone] at hafter
    refine ⟨s.afterRow i.engine r, by simp only [List.length_nil, sequencerRun, hturn], ?_, ?_⟩
    · rw [State.engine_afterRow]
      exact hafter
    · constructor <;> simp only [State.engine_afterRow, State.afterRow_cs]
      · exact ⟨hbusy, hmpc⟩
      · exact result
      · exact status
      · rw [hnone]
        rfl
  | @emit x r ev evs row inBuf event rest ih =>
    subst hx
    obtain ⟨hlabel, hturn⟩ := hruns.turn_row row inBuf
    have hafter := hruns.row hlabel row i.engine
    have hcs := s.afterRow_cs i.engine r
    rw [event] at hafter hcs
    obtain ⟨t, hrun, hwithin, hends⟩ := ih (s := s.afterRow i.engine r) (by rw [State.engine_afterRow]; exact hafter)
      (s.engine_afterRow i.engine r)
    rw [List.append_assoc] at hwithin
    rw [hcs] at hends
    exact ⟨t, by simpa only [List.length_cons, sequencerRun, hturn] using hrun, hwithin, hends⟩

/-- A ready engine that accepts a command with such rows emits just these events. -/
theorem commandRun_of_endsEmitting (hready : (s.engine i.engine).ReadyFor i) (hwf : i.wellFormed = true)
    (h : EndsEmitting i.engine res st evs ((s.engine i.engine).accept i (firstRow i).1)) :
    ∃ t, commandRun i (evs.length + 1) s = .next t ∧ newEvents i.engine s t = evs ∧
      RunEnds i.engine res st (s.cs.afterAll evs) t := by
  have hexec : exec i s = .next (s.setEngine i.engine ((s.engine i.engine).accept i (firstRow i).1)) :=
    exec_next_iff.2 ⟨_, _, .accepted hready.2.1.2 hwf, rfl⟩
  obtain ⟨t, hrun, hwithin, hends⟩ := EndsEmitting.run (i := i) (pre := [])
    (s := s.setEngine i.engine ((s.engine i.engine).accept i (firstRow i).1))
    (by rw [State.engine_setEngine]; exact h) (by rw [State.engine_setEngine]; exact .accepted hready)
  rw [State.setEngine_cs] at hends
  exact ⟨t, by simpa only [commandRun, hexec] using hrun, newEvents_of_trace hwithin.trace, hends⟩

end

/-! ### Rows whose polls are answered 1 -/

/-- The engine `x` stands at the label `l` of the command that the engine `y` accepted, in phase `p`, with CSDRV `c`,
index `idx` and BUF `b`; the next `k` polls will be answered 1, and `vs` are the next values to receive. -/
structure AnsweredAt (y : Engine) (l : Label) (p : Phase) (c : Bool) (idx : BitVec 9) (b : Memory) (k : Nat)
    (vs : List (BitVec 32)) (x : Engine) : Prop where
  same : y.SameCommand x
  result : x.result = y.result
  mpc : x.mpc = l
  status : x.status = { y.status with phase := p, csdrv := c }
  idx : x.idx = idx
  buf : x.buf = b
  polls : ∃ flags, x.env.flags = List.replicate k true ++ flags
  values : ∃ more, x.env.values = vs ++ more

section
variable {e : EngineId} {y x : Engine} {l next again done failLabel : Label} {p : Phase} {c : Bool} {idx : BitVec 9}
  {b : Memory} {k : Nat} {v : BitVec 32} {vs : List (BitVec 32)} {r : Row} {res : Result} {st : Status}
  {evs : List Event}

theorem Engine.SameCommand.trans {x y z : Engine} (h : x.SameCommand y) (h' : y.SameCommand z) : x.SameCommand z :=
  ⟨h'.cmd.trans h.cmd, h'.latch.trans h.latch, h'.faults.trans h.faults, h'.rej.trans h.rej,
    h'.contested.trans h.contested, h'.bufEpoch.trans h.bufEpoch⟩

/-- STATUS after a row that does not end its command. -/
theorem Row.engine_status (h : r.op.finishes = false) (e : EngineId) (x : Engine) :
    (r.engine e x).status =
      { x.status with phase := r.phase.getD x.status.phase, csdrv := r.csdrv.getD x.status.csdrv } := by
  obtain ⟨_, hstatus⟩ := r.op.engine_unfinished e (r.before x) h
  rw [Row.engine, Row.after_eq, hstatus, Row.before_eq]

/-- What a row that does not end its command leaves, beside its label, index and BUF. -/
theorem AnsweredAt.row {l' : Label} {idx' : BitVec 9} {b' : Memory} {k' : Nat} {vs' : List (BitVec 32)}
    (h : AnsweredAt y l p c idx b k vs x) (hop : r.op.finishes = false) (hmpc : (r.engine e x).mpc = l')
    (hidx : (r.engine e x).idx = idx') (hbuf : (r.engine e x).buf = b')
    (hpolls : ∃ flags, (r.engine e x).env.flags = List.replicate k' true ++ flags)
    (hvalues : ∃ more, (r.engine e x).env.values = vs' ++ more) :
    AnsweredAt y l' (r.phase.getD p) (r.csdrv.getD c) idx' b' k' vs' (r.engine e x) where
  same := h.same.trans (r.engine_sameCommand e x)
  result := ((r.engine_unfinished e x hop).1).trans h.result
  mpc := hmpc
  status := by rw [r.engine_status hop, h.status]
  idx := hidx
  buf := hbuf
  polls := hpolls
  values := hvalues

/-- The engine `x` with what is known of it written out: its row can be read off. -/
abbrev Engine.seenAs (x y : Engine) (l : Label) (idx : BitVec 9) : Engine :=
  { x with mpc := l, idx := idx, latch := y.latch, result := y.result }

theorem AnsweredAt.seenAs_eq (h : AnsweredAt y l p c idx b k vs x) : x.seenAs y l idx = x := by
  rw [Engine.seenAs, ← h.mpc, ← h.idx, ← h.same.latch, ← h.result]

/-- An EMIT row emits its event, and the command goes on at the next label. -/
theorem AnsweredAt.emits {ev : Event} (h : AnsweredAt y l p c idx b k vs x) (hrow : (x.seenAs y l idx).row = some r)
    (hop : r.op = .emit ev next)
    (rest : ∀ z, AnsweredAt y next (r.phase.getD p) (r.csdrv.getD c) (if r.clearIdx then 0 else idx) b k vs z →
      EndsEmitting e res st evs z) : EndsEmitting e res st (ev :: evs) x := by
  rw [h.seenAs_eq] at hrow
  obtain ⟨hat, hidx, _⟩ := Row.engine_emit (e := e) (x := x) hop
  have henv : (r.engine e x).env = x.env := by simp [Row.engine, Row.after_eq, Row.before_eq, hop, MicroOp.engine]
  refine .emit hrow (by simp [hop, MicroOp.indexed]) (by simp [Row.event, hop, MicroOp.event]) (rest _ ?_)
  exact h.row (by rw [hop]; rfl) hat.mpc (by rw [hidx, h.idx])
    ((r.engine_buf e x (by simp [hop])).trans h.buf) (by rw [henv]; exact h.polls) (by rw [henv]; exact h.values)

/-- An AWAIT row takes one of the polls answered 1. -/
theorem AnsweredAt.awaits {poll : Bool → Event} {site : Site} {bits : BitVec 8}
    (h : AnsweredAt y l p c idx b (k + 1) vs x) (hrow : (x.seenAs y l idx).row = some r)
    (hop : r.op = .await poll site bits next failLabel) (hclear : r.clearIdx = false)
    (rest : ∀ z, AnsweredAt y next (r.phase.getD p) (r.csdrv.getD c) idx b k vs z → EndsEmitting e res st evs z) :
    EndsEmitting e res st (poll true :: evs) x := by
  rw [h.seenAs_eq] at hrow
  obtain ⟨flags, hflags⟩ := h.polls
  rw [List.replicate_succ, List.cons_append] at hflags
  obtain ⟨hmpc, hleft, hevent⟩ := Row.engine_answered (e := e) hop hflags
  have hvalues : (r.engine e x).env.values = x.env.values := by
    simp [Row.engine, Row.after_eq, Row.before_eq, hop, MicroOp.engine, Environment.drawFlag_cons hflags, Engine.polled]
  refine .emit hrow (by simp [hop, MicroOp.indexed]) hevent (rest _ ?_)
  exact h.row (by rw [hop]; rfl) hmpc ((Row.engine_await_idx hop hclear).trans h.idx)
    ((r.engine_buf e x (by simp [hop])).trans h.buf) ⟨flags, hleft⟩ (by rw [hvalues]; exact h.values)

/-- A row that stores takes the next value, counts it, and takes the loop test. -/
theorem AnsweredAt.stores {ev : Byte → Event} (h : AnsweredAt y l p c idx b k (v :: vs) x)
    (hrow : (x.seenAs y l idx).row = some r) (hop : r.op = .store ev again done) (hclear : r.clearIdx = false)
    (hidx : idx.toNat < y.latch.n.toNat)
    (rest : ∀ z b', AnsweredAt y (if idx.toNat + 1 < y.latch.n.toNat then again else done) (r.phase.getD p)
      (r.csdrv.getD c) (idx + 1#9) b' k vs z → EndsEmitting e res st evs z) :
    EndsEmitting e res st (ev (v.setWidth 8) :: evs) x := by
  rw [h.seenAs_eq] at hrow
  obtain ⟨more, hmore⟩ := h.values
  have hdraw : x.env.drawValue e = (v, { x.env with values := vs ++ more }) := by
    simp [Environment.drawValue, hmore]
  obtain ⟨hat, hidx', _⟩ := Row.engine_advance (e := e) (x := x) hclear (.inl ⟨ev, hop⟩)
  have henv : (r.engine e x).env = { x.env with values := vs ++ more } := by
    simp [Row.engine, Row.after_eq, Row.before_eq, hop, MicroOp.engine, Engine.received, hdraw]
  refine .emit hrow (fun _ => by rw [h.idx]; exact lt_trans hidx (BitVec.isLt _)) ?_ (rest _ (r.engine e x).buf ?_)
  · rw [Row.event_store hop, hdraw]
  · refine h.row (by rw [hop]; rfl) ?_ (by rw [hidx', h.idx]) rfl (by rw [henv]; exact h.polls)
      ⟨more, by rw [henv]⟩
    rw [hat.mpc, h.same.latch, h.idx]
    exact if_congr (morePayload_succ hidx) rfl rfl

/-- A payload row sends BUF[idx] where the host contests no byte, counts it, and takes the loop test. -/
theorem AnsweredAt.sends (h : AnsweredAt y l p c idx y.buf k vs x) (hrow : (x.seenAs y l idx).row = some r)
    (hop : r.op = .send again done) (hclear : r.clearIdx = false) (hcontested : y.contested = [])
    (hidx : idx.toNat < y.latch.n.toNat)
    (rest : ∀ z, AnsweredAt y (if idx.toNat + 1 < y.latch.n.toNat then again else done) (r.phase.getD p)
      (r.csdrv.getD c) (idx + 1#9) y.buf k vs z → EndsEmitting e res st evs z) :
    EndsEmitting e res st (.i2cTx (y.bufByte e idx.toNat) :: evs) x := by
  rw [h.seenAs_eq] at hrow
  have hquiet : x.contested = [] := h.same.contested.trans hcontested
  obtain ⟨hat, hidx', _⟩ := Row.engine_advance (e := e) (x := x) hclear (.inr hop)
  have henv : (r.engine e x).env = x.env := by
    have hbefore : (r.before x).contested = [] := by rw [Row.before_eq]; exact hquiet
    rw [Row.engine, Row.after_eq, hop, MicroOp.engine, payloadByte_uncontested hbefore]
    simp [Row.before_eq]
  refine .emit hrow (fun _ => by rw [h.idx]; exact lt_trans hidx (BitVec.isLt _)) ?_ (rest _ ?_)
  · rw [Row.event_send hop hquiet, h.idx, Engine.bufByte_congr e idx.toNat h.buf h.same.bufEpoch]
  · refine h.row (by rw [hop]; rfl) ?_ (by rw [hidx', h.idx]) ((r.engine_buf e x (by simp [hop])).trans h.buf)
      (by rw [henv]; exact h.polls) (by rw [henv]; exact h.values)
    rw [hat.mpc, h.same.latch, h.idx]
    exact if_congr (morePayload_succ hidx) rfl rfl

/-- A FINISH row ends the command. -/
theorem AnsweredAt.finishes {init : Bool} (h : AnsweredAt y l p c idx b k vs x)
    (hrow : (x.seenAs y l idx).row = some r) (hop : r.op = .finish res init) :
    EndsEmitting e res
      { y.status with
        phase := r.phase.getD p, csdrv := r.csdrv.getD c, valid := true, busy := false, init := init || y.status.init }
      [] x := by
  rw [h.seenAs_eq] at hrow
  refine .finish hrow (by rw [hop]; rfl) ?_ ?_ <;>
    simp [Row.engine, Row.after_eq, Row.before_eq, hop, MicroOp.engine, h.status]

end

/-! ### The commands -/

/-- STATUS of a command that was accepted with STATUS `st` and ended in phase `completion`, with CSDRV `c`. -/
def Status.ended (st : Status) (c : Bool) : Status :=
  { st with phase := .completion, valid := true, busy := false, csdrv := c }

/-- A ready engine that accepted a command is at its first label, with the answers its environment has ready. -/
theorem AnsweredAt.accepted {i : Instr} {s : State} {k : Nat} {vs : List (BitVec 32)}
    (hpolls : ∃ flags, (s.engine i.engine).env.flags = List.replicate k true ++ flags)
    (hvalues : ∃ more, (s.engine i.engine).env.values = vs ++ more) :
    AnsweredAt ((s.engine i.engine).accept i (firstRow i).1) (firstRow i).1 (s.engine i.engine).status.phase
      (s.engine i.engine).status.csdrv (s.engine i.engine).idx (s.engine i.engine).buf k vs
      ((s.engine i.engine).accept i (firstRow i).1) where
  same := ⟨rfl, rfl, rfl, rfl, rfl, rfl⟩
  result := rfl
  mpc := Engine.accept_mpc ..
  status := by rw [Engine.accept_status]
  idx := Engine.accept_idx ..
  buf := Engine.accept_buf ..
  polls := by rw [Engine.accept_env]; exact hpolls
  values := by rw [Engine.accept_env]; exact hvalues

section
variable {y x : Engine} {p : Phase} {c : Bool} {idx : BitVec 9} {b : Memory} {k : Nat} {vs : List (BitVec 32)}

/-- The rows of I2C_INIT (41_i2c R140). -/
theorem AnsweredAt.i2cInit (h : AnsweredAt y .in0 p c idx b k vs x) :
    EndsEmitting .i2ce (successResult y) { y.status.ended c with init := true }
      [.i2cClkSel Config.i2cClkSrc, .i2cPe false,
        .i2cTiming Config.i2cPresc Config.i2cScldel Config.i2cSdadel Config.i2cSclh Config.i2cScll, .i2cPe true] x :=
  h.emits rfl rfl fun _ h => h.emits rfl rfl fun _ h => h.emits rfl rfl fun _ h => h.emits rfl rfl fun _ h =>
    h.finishes rfl rfl

/-- The rows of SPI_INIT (42_spi R190). -/
theorem AnsweredAt.spiInit (h : AnsweredAt y .si0 p c idx b k vs x) :
    EndsEmitting .spie (successResult y) { y.status.ended false with init := true }
      [.spiSpe false, .spiCfg Config.spiBr, .csHigh, .spiSpe true] x :=
  h.emits rfl rfl fun _ h => h.emits rfl rfl fun _ h => h.emits rfl rfl fun _ h => h.emits rfl rfl fun _ h =>
    h.finishes rfl rfl

/-- The rows of I2C_READ after the payload (41_i2c R141). -/
theorem AnsweredAt.i2cReadStop (h : AnsweredAt y .rd7 p c idx b (k + 1) vs x) :
    EndsEmitting .i2ce (successResult y) (y.status.ended c) [.i2cStop, .i2cPoll .stopf true, .i2cClrStopf] x :=
  h.emits rfl rfl fun _ h => h.awaits rfl rfl rfl fun _ h => h.emits rfl rfl fun _ h => h.finishes rfl rfl

/-- The payload loop of I2C_READ, an induction over the values to receive (41_i2c R141). -/
theorem AnsweredAt.i2cReadPayload (h : AnsweredAt y .rd5 p c idx b (vs.length + 1) vs x) (hvs : vs ≠ [])
    (hn : idx.toNat + vs.length = y.latch.n.toNat) :
    EndsEmitting .i2ce (successResult y) (y.status.ended c)
      ((vs.flatMap fun v => [.i2cPoll .rxne true, .i2cRx (v.setWidth 8)]) ++
        [.i2cStop, .i2cPoll .stopf true, .i2cClrStopf]) x := by
  induction vs generalizing idx p b x with
  | nil => exact absurd rfl hvs
  | cons v vs ih =>
    rw [List.length_cons] at h hn
    have hidx : idx.toNat < y.latch.n.toNat := by omega
    refine h.awaits rfl rfl rfl fun _ h => h.stores rfl rfl rfl hidx fun z b' h => ?_
    cases vs with
    | nil =>
      rw [if_neg (by rw [List.length_nil] at hn; omega)] at h
      exact h.i2cReadStop
    | cons w vs =>
      rw [if_pos (by rw [List.length_cons] at hn; omega)] at h
      exact ih h (List.cons_ne_nil w vs) (by rw [idx_succ_toNat hidx]; omega)

/-- The rows of I2C_READ (41_i2c R141). -/
theorem AnsweredAt.i2cRead (h : AnsweredAt y .rd0 p c idx b (vs.length + 3) vs x) (hvs : vs ≠ [])
    (hn : vs.length = y.latch.n.toNat) :
    EndsEmitting .i2ce (successResult y) (y.status.ended c)
      (.i2cCr2 (saddOf y.latch.dev) false 1 false true :: .i2cPoll .txis true :: .i2cTx y.latch.reg ::
        .i2cPoll .tc true :: .i2cCr2 (saddOf y.latch.dev) true y.latch.n false true ::
        ((vs.flatMap fun v => [.i2cPoll .rxne true, .i2cRx (v.setWidth 8)]) ++
          [.i2cStop, .i2cPoll .stopf true, .i2cClrStopf])) x :=
  h.emits rfl rfl fun _ h => h.awaits rfl rfl rfl fun _ h => h.emits rfl rfl fun _ h => h.awaits rfl rfl rfl fun _ h =>
    h.emits rfl rfl fun _ h => h.i2cReadPayload hvs (by simpa using hn)

/-- The rows of I2C_WRITE after the payload (41_i2c R142). -/
theorem AnsweredAt.i2cWriteStop (h : AnsweredAt y .wr5 p c idx b (k + 1) vs x) :
    EndsEmitting .i2ce (successResult y) (y.status.ended c) [.i2cPoll .stopf true, .i2cClrStopf] x :=
  h.awaits rfl rfl rfl fun _ h => h.emits rfl rfl fun _ h => h.finishes rfl rfl

/-- The payload loop of I2C_WRITE, an induction over the bytes left to send (41_i2c R142). -/
theorem AnsweredAt.i2cWritePayload {left : Nat} (h : AnsweredAt y .wr3 p c idx y.buf (left + 2) vs x)
    (hcontested : y.contested = []) (hn : idx.toNat + (left + 1) = y.latch.n.toNat) :
    EndsEmitting .i2ce (successResult y) (y.status.ended c)
      (((List.range' idx.toNat (left + 1)).flatMap fun k => [.i2cPoll .txis true, .i2cTx (y.bufByte .i2ce k)]) ++
        [.i2cPoll .stopf true, .i2cClrStopf]) x := by
  have hidx : idx.toNat < y.latch.n.toNat := by omega
  induction left generalizing idx p x with
  | zero =>
    refine h.awaits rfl rfl rfl fun _ h => h.sends rfl rfl rfl hcontested hidx fun z h => ?_
    rw [if_neg (by omega)] at h
    exact h.i2cWriteStop
  | succ left ih =>
    refine h.awaits rfl rfl rfl fun _ h => h.sends rfl rfl rfl hcontested hidx fun z h => ?_
    rw [if_pos (by omega)] at h
    have hcount := idx_succ_toNat hidx
    have hrest := ih h (by omega) (by omega)
    rw [hcount] at hrest
    exact hrest

/-- The rows of I2C_WRITE (41_i2c R142). -/
theorem AnsweredAt.i2cWrite (h : AnsweredAt y .wr0 p c idx y.buf (y.latch.n.toNat + 2) vs x)
    (hcontested : y.contested = []) (hn : 0 < y.latch.n.toNat) :
    EndsEmitting .i2ce (successResult y) (y.status.ended c)
      (.i2cCr2 (saddOf y.latch.dev) false (y.latch.n + 1) true true :: .i2cPoll .txis true :: .i2cTx y.latch.reg ::
        (((List.range y.latch.n.toNat).flatMap fun k => [.i2cPoll .txis true, .i2cTx (y.bufByte .i2ce k)]) ++
          [.i2cPoll .stopf true, .i2cClrStopf])) x := by
  obtain ⟨left, hleft⟩ : ∃ left, y.latch.n.toNat = left + 1 := ⟨_, (Nat.sub_add_cancel hn).symm⟩
  rw [hleft] at h
  rw [← writeLength_eq, List.range_eq_range', hleft]
  exact h.emits rfl rfl fun _ h => h.awaits rfl rfl rfl fun _ h => h.emits rfl rfl fun _ h =>
    h.i2cWritePayload hcontested (by simpa using hleft.symm)

end

/-- STATUS = 0x3A after an INIT command with CSDRV = 0 (70_reset R253). -/
theorem Status.initEnded_word {st : Status} (hrej : st.rej = false) :
    Status.word { st.ended false with init := true } = 0x3A := by
  simp only [Status.ended, hrej]
  rfl

/-- Settles O36: the rows of an INIT command wait for nothing. -/
theorem initCommandsEndInSuccess : Obligations.InitCommandsEndInSuccess := by
  refine ⟨fun s hready hcsdrv => ?_, fun s hready => ?_⟩
  · have hrows := (AnsweredAt.accepted (i := .i2cInit) (s := s) (k := 0) (vs := []) ⟨_, rfl⟩ ⟨_, rfl⟩).i2cInit
    obtain ⟨t, hrun, hevs, hends⟩ := commandRun_of_endsEmitting (i := .i2cInit) hready rfl hrows
    have hstatus : t.i2c.status = _ := hends.status
    refine ⟨t, hrun, hends.idle, ?_, hends.result, hevs⟩
    rw [hstatus, show (s.engine Instr.i2cInit.engine).status.csdrv = false from hcsdrv]
    exact Status.initEnded_word rfl
  · have hrows := (AnsweredAt.accepted (i := .spiInit) (s := s) (k := 0) (vs := []) ⟨_, rfl⟩ ⟨_, rfl⟩).spiInit
    obtain ⟨t, hrun, hevs, hends⟩ := commandRun_of_endsEmitting (i := .spiInit) hready rfl hrows
    have hstatus : t.spi.status = _ := hends.status
    refine ⟨t, hrun, hends.idle, ?_, hends.line, hends.result, hevs⟩
    rw [hstatus]
    exact Status.initEnded_word rfl

/-- The legal counts of I2C_READ (30_encoding R93). -/
theorem i2cRead_wellFormed {dev : BitVec 7} {reg n : BitVec 8} :
    (Instr.i2cRead dev reg n).wellFormed = true ↔ n ≠ 0 := by
  by_cases h : n = 0 <;> simp [Instr.wellFormed, rangeError, h]

/-- A loop of two events a turn. -/
theorem length_flatMap_pair {α : Type} (f g : α → Event) (l : List α) :
    (l.flatMap fun a => [f a, g a]).length = 2 * l.length := by
  simp [List.length_flatMap, Nat.mul_comm]

/-- The bytes that the payload loop of I2C_READ receives. -/
theorem receivedBytes_payload (vs : List (BitVec 32)) :
    receivedBytes (vs.flatMap fun v => [.i2cPoll .rxne true, .i2cRx (v.setWidth 8)]) = vs.map (·.setWidth 8) := by
  induction vs with
  | nil => rfl
  | cons v vs ih => rw [List.flatMap_cons, receivedBytes_append, ih]; rfl

/-- Settles O49: the rows of a read whose polls are answered 1, and what it lays over BUF. -/
theorem i2cReadSucceedsWhenAnswered : Obligations.I2cReadSucceedsWhenAnswered := by
  intro dev reg n s vals more flags hready hn hlen hflags hvalues
  have hwf : (Instr.i2cRead dev reg n).wellFormed = true := i2cRead_wellFormed.2 hn
  have hvals : vals ≠ [] := List.ne_nil_of_length_pos (by rw [hlen]; exact i2cRead_count hwf)
  rw [← hlen] at hflags
  have hrows := (AnsweredAt.accepted (i := .i2cRead dev reg n) (s := s) ⟨flags, hflags⟩ ⟨more, hvalues⟩).i2cRead hvals
    hlen
  obtain ⟨t, hrun, hevs, hends⟩ := commandRun_of_endsEmitting (i := .i2cRead dev reg n) hready hwf hrows
  obtain ⟨_, hbuf⟩ := CommandEnded.i2cRead_stores ⟨hready, hwf, _, hrun, hends.idle.1⟩
  have hstatus : t.i2c.status = _ := hends.status
  refine ⟨t, ?_, hends.idle, hends.result, by rw [hstatus]; rfl, fun k v hv => ?_, hevs⟩
  · rw [← hrun, ← hlen]
    congr 1
    simp only [List.length_cons, List.length_append, List.length_nil, length_flatMap_pair]
  · have hreceived : receivedBytes (newEvents .i2ce s t) = vals.map (·.setWidth 8) := by
      rw [show newEvents .i2ce s t = _ from hevs]
      exact (receivedBytes_append _ [.i2cStop, .i2cPoll .stopf true, .i2cClrStopf]).trans
        (by rw [receivedBytes_payload]; exact List.append_nil _)
    rw [hbuf, hreceived, overlaid, List.getElem?_map, hv]
    rfl

/-- Settles O50: the rows of a write whose polls are answered 1. -/
theorem i2cWriteSucceedsWhenAnswered : Obligations.I2cWriteSucceedsWhenAnswered := by
  intro dev reg n s flags hready hn hlarge hflags
  have hwf : (Instr.i2cWrite dev reg n).wellFormed = true := i2cWrite_wellFormed.2 ⟨hn, hlarge⟩
  have hrows := (AnsweredAt.accepted (i := .i2cWrite dev reg n) (s := s) (vs := []) ⟨flags, hflags⟩
    ⟨_, rfl⟩).i2cWrite rfl (i2cWrite_count hwf).1
  obtain ⟨t, hrun, hevs, hends⟩ := commandRun_of_endsEmitting (i := .i2cWrite dev reg n) hready hwf hrows
  have hstatus : t.i2c.status = _ := hends.status
  refine ⟨t, ?_, hends.idle, hends.result, by rw [hstatus]; rfl, hevs⟩
  rw [← hrun]
  congr 1
  simp only [List.length_cons, List.length_append, List.length_nil, length_flatMap_pair, List.length_range]
  show _ = 2 * n.toNat + 2 + 3 + 1
  omega

end Sys2Proof.Machine
end

section
/-! The rows of the SPI micro-programs as claims about exec (O13, O14, O15, O16), with the kinds of rows that the I2C
micro-programs do not have. -/

namespace Sys2Proof.Machine

section
variable {i : Instr} {l next : Label} {row : Engine → Row} {also : Engine → Engine}

/-- A row whose value goes to tmp (40_sequencer R115). -/
theorem RowAt.receives {cut : BitVec 32 → BitVec 16} {ev : BitVec 16 → Event} (h : RowAt l row)
    (hl : labelOpcode l = some i.opcode) (hop : ∀ x, (row x).op = .receive cut ev next)
    (halso : ∀ x, (row x).after ((row x).before x) = also x) :
    ReceivesAt i l cut ev next (awaitSite next) also := by
  intro s v env _ hm hdraw
  rw [h.exec_eq hl hm (unindexed_inBuf (by rw [hop]; rfl)), State.afterRow, Row.event, Row.engine, hop, ← halso]
  simp only [MicroOp.engine, MicroOp.event, Engine.goto_loadedBudget, Row.before_eq, Row.after_eq, Engine.received,
    hdraw, State.observed]

/-- A FINISH row that also sets the phase (42_spi R191, R192). -/
theorem RowAt.finishesInPhase {res : Engine → Result} {p : Phase}
    (h : RowAt l fun x => .inPhase p (.finish (res x) false)) (hl : labelOpcode l = some i.opcode) :
    FinishesAt i l res (phaseSet p) := by
  intro s _ hm
  rw [h.exec_eq hl hm (unindexed_inBuf rfl)]
  rfl

/-- The FINISH(F) row of an exchange, whose RDATA is a draw (40_sequencer R116). -/
theorem RowAt.finishesDrawn (h : RowAt l fun _ => .plain .finishDrawn) (hl : labelOpcode l = some i.opcode) :
    FinishesFailedExchangeAt i l := by
  intro s v env _ hm hdraw
  rw [h.exec_eq hl hm (unindexed_inBuf rfl), State.afterRow, Row.plain_event, Row.plain_engine]
  simp only [MicroOp.engine, hdraw]
  rfl

end

/-- Settles O13: the rows of SPI_INIT, read off the table. -/
theorem spiInitRunsItsMicroProgram : Obligations.SpiInitRunsItsMicroProgram := by
  refine ⟨?si0, ?si1, ?si2, ?si3, ?si4⟩
  case si4 => exact RowAt.finishes (fun _ => rfl) rfl fun _ => rfl
  all_goals exact RowAt.emits (fun _ => rfl) rfl (fun _ => rfl) fun _ => rfl

/-- Settles O14: the rows of SPI_SR8, read off the table. -/
theorem spiSr8RunsItsMicroProgram : Obligations.SpiSr8RunsItsMicroProgram := by
  intro data
  refine ⟨?x0, ?x1, ?x2, ?x3, ?x4, ?xFail⟩
  case x0 | x2 => exact RowAt.awaits (fun _ => rfl) rfl (fun _ => rfl) rfl (fun _ => rfl) rfl
  case x1 => exact RowAt.emits (fun _ => rfl) rfl (fun _ => rfl) fun _ => rfl
  case x3 => exact RowAt.receives (fun _ => rfl) rfl (fun _ => rfl) fun _ => rfl
  case x4 => exact RowAt.finishesInPhase (fun _ => rfl) rfl
  case xFail => exact RowAt.finishesDrawn (fun _ => rfl) rfl

/-- Settles O15: the rows of SPI_SR16, read off the table. -/
theorem spiSr16RunsItsMicroProgram : Obligations.SpiSr16RunsItsMicroProgram := by
  intro data
  refine ⟨?y0, ?y1, ?y2, ?y3, ?y4, ?yFail⟩
  case y0 | y2 => exact RowAt.awaits (fun _ => rfl) rfl (fun _ => rfl) rfl (fun _ => rfl) rfl
  case y1 => exact RowAt.emits (fun _ => rfl) rfl (fun _ => rfl) fun _ => rfl
  case y3 => exact RowAt.receives (fun _ => rfl) rfl (fun _ => rfl) fun _ => rfl
  case y4 => exact RowAt.finishesInPhase (fun _ => rfl) rfl
  case yFail => exact RowAt.finishesDrawn (fun _ => rfl) rfl

/-- Settles O16: the rows of SPI_BURST, read off the table. -/
theorem spiBurstRunsItsMicroProgram : Obligations.SpiBurstRunsItsMicroProgram := by
  intro reg n
  refine ⟨?b0, ?b1, ?b2, ?b3, ?b4, ?b5, ?b6, ?b7, ?b8, ?b9, ?b10, ?b11, ?b12, ?b13, ?b14, ?b15, ?b16, ?b17, ?b18,
    ?bf0, ?bf1⟩
  case b1 | b3 | b5 | b7 | b9 | b11 | b13 | b15 =>
    exact RowAt.awaits (fun _ => rfl) rfl (fun _ => rfl) rfl (fun _ => rfl) rfl
  case b4 | b8 | b12 => exact RowAt.receives (fun _ => rfl) rfl (fun _ => rfl) fun _ => rfl
  case b16 => exact RowAt.stores (fun _ => rfl) rfl rfl rfl
  case b18 | bf1 => exact RowAt.finishes (fun _ => rfl) rfl fun _ => rfl
  all_goals exact RowAt.emits (fun _ => rfl) rfl (fun _ => rfl) fun _ => rfl

end Sys2Proof.Machine
end

section
/-! The burst's address byte (O53) and the frame formatter (O54). -/

namespace Sys2Proof.Machine

/-- Bit 7 is the only bit of READ_BIT (00_scope R8). -/
theorem burstAddress_getLsbD (reg : BitVec 8) {k : Nat} (h : k < 8) :
    (burstAddress reg).getLsbD k = (reg.getLsbD k || decide (k = 7)) := by
  have hbit : readBit.getLsbD k = decide (k = 7) := by
    interval_cases k <;> rfl
  rw [burstAddress, BitVec.getLsbD_or, hbit]

/-- Settles O53: bit by bit. -/
theorem burstAddressSetsOnlyBit7 : Obligations.BurstAddressSetsOnlyBit7 := by
  intro reg
  refine ⟨rfl, by rw [burstAddress_getLsbD reg (by omega)]; exact Bool.or_true _, fun k hk => ?_, fun hset => ?_⟩
  · rw [burstAddress_getLsbD reg (by omega), decide_eq_false (by omega), Bool.or_false]
  · refine BitVec.eq_of_getLsbD_eq fun k hk => ?_
    rw [burstAddress_getLsbD reg hk]
    by_cases h7 : k = 7
    · rw [h7, hset, Bool.true_or]
    · rw [decide_eq_false h7, Bool.or_false]

/-- A 16-bit value is its high byte and its low byte. -/
theorem highByte_append_lowByte (v : Half) : v.extractLsb' 8 8 ++ v.extractLsb' 0 8 = v := by
  rw [BitVec.extractLsb'_append_extractLsb'_eq_extractLsb' (by omega)]
  simp

/-- A 16-bit exchange is two frames, and the read joins the bytes they brought in the order they came (42_spi R181). -/
theorem wireFrames_exchange16 (order : SpiByteOrder) (w v : Half) :
    wireFrames order [.spiTx16 w, .spiRx16 v] =
      [⟨(splitWord order w).1, some (splitWord order v).1⟩, ⟨(splitWord order w).2, some (splitWord order v).2⟩] := by
  cases order <;> rfl

/-- Joining undoes splitting, in either byte order (42_spi R181). -/
theorem joinWord_splitWord (order : SpiByteOrder) (v : Half) :
    joinWord order (splitWord order v).1 (splitWord order v).2 = v := by
  cases order <;> exact highByte_append_lowByte v

/-- Settles O54: the settings and the frames by computation, the assembly by `joinWord_splitWord`. -/
theorem frameFormatterOrdersBytes : Obligations.FrameFormatterOrdersBytes := by
  refine ⟨fun _ _ => rfl, rfl, fun _ _ => rfl, fun _ => ⟨rfl, rfl⟩, fun order w v => ?_, fun _ _ => ⟨rfl, rfl⟩,
    fun _ _ _ => rfl⟩
  exact ⟨_, _, _, _, wireFrames_exchange16 order w v, (joinWord_splitWord order v).symm⟩

end Sys2Proof.Machine
end

section
/-! CS over an SPI_BURST (O43): CS_LOW is its first event and CS_HIGH its last, on both paths (42_spi R172, R173). -/

namespace Sys2Proof.Machine

/-- Where an SPI_BURST stands with CS at the label `l`, after the events `evs`, with the line at `cs` and CSDRV `csdrv`:
not yet selected, selected, or deselected. -/
inductive BurstSelects (cs : CsLevel) (csdrv : Bool) : Label → List Event → Prop
  | before {l : Label} (label : l = .b0) : BurstSelects cs csdrv l []
  | selected {l : Label} {during : List Event} (label : selectedAt l = true) (quiet : csEvents during = []) :
    BurstSelects cs csdrv l (.csLow :: during)
  | deselected {l : Label} {during : List Event} (label : l = .b18 ∨ l = .bf1 ∨ l = .idle)
    (quiet : csEvents during = []) (line : cs = .high) (released : csdrv = false) :
    BurstSelects cs csdrv l (.csLow :: (during ++ [.csHigh]))

section
variable {x x₀ : Engine} {r : Row} {evs : List Event} {cs : CsLevel} {csdrv : Bool} {reg n : BitVec 8} {s t : State}

/-- At B0 a burst has emitted nothing. -/
theorem BurstSelects.of_b0 (h : BurstSelects cs csdrv .b0 evs) : evs = [] := by
  cases h with
  | before label => rfl
  | selected label quiet => cases label
  | deselected label => simp at label

/-- While a burst is selected it has emitted CS_LOW and no other CS event. -/
theorem BurstSelects.of_selected {l : Label} (h : BurstSelects cs csdrv l evs) (hl : selectedAt l = true) :
    ∃ during, evs = .csLow :: during ∧ csEvents during = [] := by
  cases h with
  | before label => rw [label] at hl; cases hl
  | selected label quiet => exact ⟨_, rfl, quiet⟩
  | deselected label => obtain rfl | rfl | rfl := label <;> cases hl

/-- Past CS_HIGH a burst has emitted CS_LOW first, CS_HIGH last and no other CS event, and the line is High. -/
theorem BurstSelects.of_deselected {l : Label} (h : BurstSelects cs csdrv l evs)
    (hl : l = .b18 ∨ l = .bf1 ∨ l = .idle) :
    (∃ during, evs = .csLow :: (during ++ [.csHigh]) ∧ csEvents during = []) ∧ cs = .high ∧ csdrv = false := by
  cases h with
  | before label => simp [label] at hl
  | selected label quiet => obtain rfl | rfl | rfl := hl <;> cases label
  | deselected label quiet line released => exact ⟨⟨_, rfl, quiet⟩, line, released⟩

/-- The rows of a burst by what they do with CS: B0 selects, B17 and BF0 deselect, the rows between them emit no CS
event, and those after them end the burst (42_spi R193). -/
theorem Engine.row_burstCs (h : x.row = some r) (hl : labelOpcode x.mpc = some 0xC) :
    (x.mpc = .b0 ∧ r.op = .emit .csLow .b1) ∨
    (selectedAt x.mpc = true ∧ r.csdrv = none ∧ r.op.finishes = false ∧ csEvents (r.event .spie x).toList = []) ∨
    (selectedAt x.mpc = true ∧ r.csdrv = some false ∧ ∃ next, r.op = .emit .csHigh next ∧
      (next = .b18 ∨ next = .bf1)) ∨
    ((x.mpc = .b18 ∨ x.mpc = .bf1) ∧ r.csdrv = none ∧ r.op.finishes = true) := by
  cases hm : x.mpc <;> simp [hm, labelOpcode] at hl <;>
    simp only [Engine.row, hm, Option.some.injEq] at h <;> subst h <;>
    simp [selectedAt, MicroOp.finishes, Row.event, MicroOp.event, csEvents]

/-- Each row of a burst keeps its standing with CS, the line moving with the row's event. -/
theorem BurstSelects.row (h : BurstSelects cs x.status.csdrv x.mpc evs) (hlabel : labelOpcode x.mpc = some 0xC)
    (hrow : x.row = some r) :
    BurstSelects (cs.after (r.event .spie x)) (r.engine .spie x).status.csdrv (r.engine .spie x).mpc
      (evs ++ (r.event .spie x).toList) := by
  have hemit : ∀ {ev next}, r.op = .emit ev next → r.event .spie x = some ev := fun hop => by
    rw [Row.event, hop, MicroOp.event]
  rw [Row.engine_csdrv]
  obtain ⟨hm, hop⟩ | ⟨hsel, hcsdrv, hfin, hquiet⟩ | ⟨hsel, hcsdrv, next, hop, hnext⟩ | ⟨hm, hcsdrv, hfin⟩ :=
    Engine.row_burstCs hrow hlabel
  · rw [hm] at h
    rw [h.of_b0, hemit hop, (Row.engine_emit hop).1.mpc]
    exact .selected rfl rfl
  · obtain ⟨during, rfl, hduring⟩ := h.of_selected hsel
    obtain ⟨_, hleads⟩ := Row.leadsTo_engine (e := .spie) (Engine.row_fits hrow) hfin
    exact .selected (by rw [hleads, hcsdrv]; exact hsel) ((csEvents_append ..).trans (by rw [hduring, hquiet]; rfl))
  · obtain ⟨during, rfl, hduring⟩ := h.of_selected hsel
    rw [hemit hop, (Row.engine_emit hop).1.mpc, hcsdrv]
    exact .deselected (by tauto) hduring rfl rfl
  · obtain ⟨⟨during, rfl, hduring⟩, hline, hreleased⟩ := h.of_deselected (by tauto)
    rw [(r.quiet_of_finishes hfin .spie x).1, (r.engine_finished .spie x hfin).2.2.1, hcsdrv, Option.toList_none,
      List.append_nil]
    exact .deselected (.inr (.inr rfl)) hduring hline hreleased

/-- The standing of a burst with CS in the state `u`. -/
def BurstCs (evs : List Event) (u : State) : Prop := BurstSelects u.cs u.spi.status.csdrv u.spi.mpc evs

theorem BurstCs.keptByRows (x₀ : Engine) : KeptByRows (.spiBurst reg n) x₀ BurstCs := by
  intro evs u r h _ hlabel hrow
  rw [BurstCs, State.afterRow_cs]
  exact BurstSelects.row h hlabel hrow

/-- How a burst that ends has stood with CS. -/
theorem CommandEnded.burst_cs (h : CommandEnded (.spiBurst reg n) s t) :
    (∃ during, newEvents .spie s t = .csLow :: (during ++ [.csHigh]) ∧ csEvents during = []) ∧
      t.cs = .high ∧ t.spi.status.csdrv = false := by
  obtain ⟨hended, hidle⟩ := h.induction (P := BurstCs) (.before (Engine.accept_mpc ..)) (BurstCs.keptByRows _)
  exact BurstSelects.of_deselected hended (.inr (.inr hidle))

end

/-- Settles O43: by the standing of the burst with CS at IDLE. -/
theorem burstDeselectsOnEveryExit : Obligations.BurstDeselectsOnEveryExit :=
  fun _ _ _ _ h => h.burst_cs

end Sys2Proof.Machine
end

section
/-! What an SPI_BURST exchanges, on the wire and in BUF, and how it ends (O44, O45): an induction over the rows of its
run. -/

namespace Sys2Proof.Machine

/-! ### The frames of a trace (42_spi R181, R183) -/

theorem wireFrames_concat (order : SpiByteOrder) (evs : List Event) (ev : Event) :
    wireFrames order (evs ++ [ev]) = framesAfter order (wireFrames order evs) ev :=
  List.foldl_concat ..

/-- A read gives the frame that was started last its byte. -/
theorem fillLast_concat (v : Byte) (frames : List WireFrame) (f : WireFrame) :
    fillLast v (frames ++ [f]) = frames ++ [{ f with rx := some v }] := by
  induction frames with
  | nil => rfl
  | cons g frames ih =>
    cases frames with
    | nil => rfl
    | cons g' frames => exact congrArg (g :: ·) ih

/-- The byte that frame `k` of a burst sends: the address, then dummies and fillers (42_spi R185, R186, R187). -/
def burstByte (reg : BitVec 8) : Nat → Byte
  | 0 => burstAddress reg
  | _ + 1 => Config.spiDummy

/-- The complete frames of a burst that received the bytes `got`. -/
def burstFrames (reg : BitVec 8) (got : List Byte) : List WireFrame := got.mapIdx fun k v => ⟨burstByte reg k, some v⟩

theorem burstFrames_concat (reg : BitVec 8) (got : List Byte) (v : Byte) :
    burstFrames reg (got ++ [v]) = burstFrames reg got ++ [⟨burstByte reg got.length, some v⟩] :=
  List.mapIdx_concat

/-- A burst has completed `count` frames, and has started one more if `pending`. -/
structure Exchanged (reg : BitVec 8) (evs : List Event) (count : Nat) (pending : Bool) : Prop where
  received : (receivedBytes evs).length = count
  frames : ∀ order, wireFrames order evs =
    burstFrames reg (receivedBytes evs) ++ if pending then [⟨burstByte reg count, none⟩] else []

section
variable {reg : BitVec 8} {evs : List Event} {count : Nat} {pending : Bool}

theorem Exchanged.start : Exchanged reg [] 0 false := ⟨rfl, fun _ => rfl⟩

/-- An event that is no access to DR. -/
def Event.BesideDr (ev : Event) : Prop := (∃ f v, ev = .spiPoll f v) ∨ ev = .csLow ∨ ev = .csHigh

/-- Polls and CS events exchange nothing. -/
theorem Exchanged.beside {ev : Event} (h : Exchanged reg evs count pending) (hev : ev.BesideDr) :
    Exchanged reg (evs ++ [ev]) count pending := by
  have hreceived : receivedBytes (evs ++ [ev]) = receivedBytes evs := by
    rw [receivedBytes_append]
    obtain ⟨f, v, rfl⟩ | rfl | rfl := hev <;> exact List.append_nil _
  refine ⟨hreceived ▸ h.received, fun order => ?_⟩
  rw [hreceived, ← h.frames, wireFrames_concat]
  obtain ⟨f, v, rfl⟩ | rfl | rfl := hev <;> rfl

/-- A DR write starts the next frame. -/
theorem Exchanged.tx {b : Byte} (h : Exchanged reg evs count false) (hb : b = burstByte reg count) :
    Exchanged reg (evs ++ [.spiTx8 b]) count true := by
  have hreceived : receivedBytes (evs ++ [.spiTx8 b]) = receivedBytes evs :=
    (receivedBytes_append ..).trans (List.append_nil _)
  refine ⟨hreceived ▸ h.received, fun order => ?_⟩
  rw [hreceived, wireFrames_concat, h.frames, hb]
  simp [framesAfter]

/-- A DR read completes it. -/
theorem Exchanged.rx (h : Exchanged reg evs count true) (v : Byte) :
    Exchanged reg (evs ++ [.spiRx8 v]) (count + 1) false := by
  have hreceived : receivedBytes (evs ++ [.spiRx8 v]) = receivedBytes evs ++ [v] := receivedBytes_append ..
  refine ⟨by rw [hreceived, List.length_append, h.received]; rfl, fun order => ?_⟩
  rw [hreceived, wireFrames_concat, h.frames, burstFrames_concat, h.received]
  exact (fillLast_concat ..).trans (List.append_nil _).symm

end

/-! ### The stages of a burst (42_spi R193) -/

/-- How an SPI_BURST of `n` bytes that received `got` fails: its site and residual (42_spi R189, R193). -/
inductive BurstFailed (n : BitVec 8) (got : Nat) : Option Site → BitVec 8 → Prop
  | early {site : Site} (h16 : site ≠ .s16) (h17 : site ≠ .s17) (few : got < 3) : BurstFailed n got (some site) 0
  | payload {site : Site} {res : BitVec 8} {idx : Nat} (hsite : site = .s16 ∨ site = .s17) (short : idx < n.toNat)
    (count : got = idx + 3) (left : res.toNat = n.toNat - idx) : BurstFailed n got (some site) res

/-- How an SPI_BURST ends: with all its frames, or failed. -/
def BurstEnds (reg n : BitVec 8) (evs : List Event) (r : Result) : Prop :=
  (r.outcome = .success ∧ Exchanged reg evs (n.toNat + 3) false) ∨
    (r.outcome ≠ .success ∧ BurstFailed n (receivedBytes evs).length r.failsite r.residual)

/-- How far an SPI_BURST of `n` bytes has come, by its label, with the events `evs` so far: idx counts the payload bytes
received after the three discarded ones. -/
def BurstAt (reg n : BitVec 8) (evs : List Event) (l : Label) (x : Engine) : Prop :=
  match l with
  | .b0 | .b1 | .b2 => Exchanged reg evs 0 false
  | .b3 | .b4 => Exchanged reg evs 0 true
  | .b5 | .b6 => Exchanged reg evs 1 false
  | .b7 | .b8 => Exchanged reg evs 1 true
  | .b9 | .b10 => Exchanged reg evs 2 false
  | .b11 | .b12 => Exchanged reg evs 2 true
  | .b13 | .b14 => x.idx.toNat < n.toNat ∧ Exchanged reg evs (x.idx.toNat + 3) false
  | .b15 | .b16 => x.idx.toNat < n.toNat ∧ Exchanged reg evs (x.idx.toNat + 3) true
  | .b17 | .b18 => Exchanged reg evs (n.toNat + 3) false
  | .bf0 | .bf1 => x.fail.oc ≠ .success ∧ BurstFailed n (receivedBytes evs).length x.fail.site x.fail.res
  | .idle => BurstEnds reg n evs x.result
  | _ => False

section
variable {reg n : BitVec 8} {evs : List Event} {x x₀ : Engine} {r : Row} {s t : State}

/-- A wait of SPIE polls once and leaves idx: it goes on, or fails with the outcome of its site, or stays
(40_sequencer R112). -/
theorem Row.spi_wait_cases {phase : Option Phase} {f : SpiFlag} {site : Site} {res : BitVec 8} {next failLabel : Label}
    (hr : ⟨phase, .await (.spiPoll f) site res next failLabel, false, none⟩ = r) :
    (r.engine .spie x).idx = x.idx ∧ (∃ ev : Event, r.event .spie x = some ev ∧ ev.BesideDr) ∧
      ((r.engine .spie x).mpc = next ∨
      ((r.engine .spie x).mpc = failLabel ∧ (r.engine .spie x).fail = ⟨siteOutcome site, some site, res⟩) ∨
      (r.engine .spie x).mpc = x.mpc) := by
  have hop : r.op = .await (.spiPoll f) site res next failLabel := by rw [← hr]
  refine ⟨Row.engine_await_idx hop (by rw [← hr]), ⟨_, by rw [Row.event, hop, MicroOp.event], .inl ⟨f, _, rfl⟩⟩, ?_⟩
  obtain ⟨_, hat, _⟩ | ⟨_, hat, hfail⟩ | ⟨_, hmpc, _⟩ := Row.engine_await (e := .spie) (x := x) hop
  · exact .inl hat.mpc
  · exact .inr (.inl ⟨hat.mpc, hfail⟩)
  · exact .inr (.inr hmpc)

/-- Each row of SPI_BURST takes it one stage on. -/
theorem BurstAt.row (h : BurstAt reg n evs x.mpc x) (hn : 0 < n.toNat)
    (hruns : WithinRun (.spiBurst reg n) x₀ evs x) (hlabel : labelOpcode x.mpc = some 0xC) (hrow : x.row = some r) :
    BurstAt reg n (evs ++ (r.event .spie x).toList) (r.engine .spie x).mpc (r.engine .spie x) := by
  obtain ⟨hlatchN, hlatchReg⟩ : x.latch.n = n ∧ x.latch.reg = reg := by rw [hruns.latch]; exact ⟨rfl, rfl⟩
  cases hm : x.mpc <;> simp [hm, labelOpcode] at hlabel <;>
    simp only [Engine.row, hm, Option.some.injEq] at hrow <;> simp only [BurstAt, hm] at h
  case b0 =>
    subst hrow
    exact h.beside (.inr (.inl rfl))
  case b1 | b3 | b5 | b7 | b9 | b11 =>
    obtain ⟨_, ⟨ev, hev, hbeside⟩, hmpc | ⟨hmpc, hfail⟩ | hmpc⟩ := Row.spi_wait_cases (x := x) hrow <;> rw [hev, hmpc]
    · exact h.beside hbeside
    · rw [BurstAt, hfail, Option.toList_some, (h.beside hbeside).received]
      exact ⟨nofun, .early nofun nofun (by decide)⟩
    · rw [hm]
      exact h.beside hbeside
  case b13 | b15 =>
    obtain ⟨hidx, ⟨ev, hev, hbeside⟩, hmpc | ⟨hmpc, hfail⟩ | hmpc⟩ := Row.spi_wait_cases (x := x) hrow <;>
      rw [hev, hmpc]
    · rw [BurstAt, hidx]
      exact ⟨h.1, h.2.beside hbeside⟩
    · rw [BurstAt, hfail, hlatchN, Option.toList_some, (h.2.beside hbeside).received]
      exact ⟨nofun, .payload (by simp) h.1 rfl (residualOf_toNat h.1)⟩
    · rw [hm, BurstAt, hidx]
      exact ⟨h.1, h.2.beside hbeside⟩
  case b2 =>
    subst hrow
    exact h.tx (congrArg burstAddress hlatchReg)
  case b6 | b10 =>
    subst hrow
    exact h.tx rfl
  case b14 =>
    subst hrow
    exact ⟨h.1, h.2.tx rfl⟩
  case b4 | b8 =>
    subst hrow
    exact h.rx _
  case b12 =>
    subst hrow
    exact ⟨hn, h.rx _⟩
  case b16 =>
    obtain ⟨hlt, hat⟩ := h
    have hop : r.op = .store Event.spiRx8 .b13 .b17 := by rw [← hrow]
    obtain ⟨harrived, hidx, _⟩ := Row.engine_advance (e := .spie) (x := x) (by rw [← hrow]) (.inl ⟨_, hop⟩)
    have hcount := idx_succ_toNat hlt
    have hdone := hat.rx ((x.env.drawValue .spie).1.setWidth 8)
    rw [Row.event_store hop, harrived.mpc, hlatchN]
    by_cases hmore : x.idx.toNat + 1 < n.toNat
    · rw [if_pos ((morePayload_iff _ _).2 (by omega)), BurstAt, hidx, hcount, Nat.add_right_comm]
      exact ⟨hmore, hdone⟩
    · rw [if_neg (by rw [morePayload_iff]; omega), BurstAt, show n.toNat = x.idx.toNat + 1 by omega, Nat.add_right_comm]
      exact hdone
  case b17 =>
    subst hrow
    exact h.beside (.inr (.inr rfl))
  case b18 =>
    subst hrow
    refine .inl ⟨rfl, ?_⟩
    rw [show Row.event _ _ _ = none from rfl, Option.toList_none, List.append_nil]
    exact h
  case bf0 =>
    subst hrow
    refine ⟨h.1, ?_⟩
    rw [receivedBytes_append]
    show BurstFailed n ((receivedBytes evs) ++ []).length x.fail.site x.fail.res
    rw [List.append_nil]
    exact h.2
  case bf1 =>
    subst hrow
    refine .inr ?_
    rw [show Row.event _ _ _ = none from rfl, Option.toList_none, List.append_nil]
    exact h

/-! ### What a burst leaves in BUF (42_spi R188, R189) -/

/-- The bytes a burst received after the three it discards (42_spi R188). -/
abbrev burstPayload (evs : List Event) : List Byte := (receivedBytes evs).drop 3

/-- SPI_BURST stores what it receives at B16, and receives at B4, B8 and B12 what it discards (42_spi R193). -/
theorem Engine.row_burstReceives (h : x.row = some r) (hl : labelOpcode x.mpc = some 0xC) :
    (x.mpc = .b16 ∧ ∃ again done, r.op = .store Event.spiRx8 again done) ∨
      ((∀ ev again done, r.op ≠ .store ev again done) ∧
        (receivedBytes (r.event .spie x).toList = [] ∨
          (x.mpc = .b4 ∨ x.mpc = .b8 ∨ x.mpc = .b12) ∧ (receivedBytes (r.event .spie x).toList).length = 1)) := by
  cases hm : x.mpc <;> simp [hm, labelOpcode] at hl <;>
    simp only [Engine.row, hm, Option.some.injEq] at h <;> subst h <;>
    simp [Row.event, MicroOp.event, receivedBytes]

/-- A row of SPI_BURST lays the byte it stores, if any, over BUF after those before it. -/
theorem BurstAt.row_bufByte {held : Nat → Byte} (h : BurstAt reg n evs x.mpc x)
    (hbuf : ∀ k, x.bufByte .spie k = overlaid (burstPayload evs) held k) (hlabel : labelOpcode x.mpc = some 0xC)
    (hrow : x.row = some r) (k : Nat) :
    (r.engine .spie x).bufByte .spie k = overlaid (burstPayload (evs ++ (r.event .spie x).toList)) held k := by
  rw [burstPayload, receivedBytes_append]
  obtain ⟨hm, again, done, hop⟩ | ⟨hop, hreceived⟩ := Engine.row_burstReceives hrow hlabel
  · rw [hm] at h
    have hlen : (receivedBytes evs).length = x.idx.toNat + 3 := h.2.received
    have hcount : x.idx.toNat = (burstPayload evs).length := by rw [List.length_drop, hlen, Nat.add_sub_cancel]
    rw [Row.engine_bufByte_store hop, hbuf, Row.event_store hop, hcount, ← overlaid_concat,
      List.drop_append_of_le_length (by omega)]
    rfl
  · rw [Row.engine_bufByte hop, hbuf]
    obtain hnone | ⟨hm, hone⟩ := hreceived
    · rw [hnone, List.append_nil]
    · have hlen : (receivedBytes evs).length < 3 := by
        obtain hm | hm | hm := hm <;> rw [hm] at h <;> rw [Exchanged.received h] <;> decide
      rw [burstPayload, List.drop_of_length_le hlen.le,
        List.drop_of_length_le (by rw [List.length_append, hone]; exact hlen)]

/-- What holds along the run of an SPI_BURST: its stage, that the payload lies over what BUF held, and that RDATA
stays. -/
structure BurstStores (reg n : BitVec 8) (x₀ : Engine) (evs : List Event) (u : State) : Prop where
  stage : BurstAt reg n evs u.spi.mpc u.spi
  buf : ∀ k, u.spi.bufByte .spie k = overlaid (burstPayload evs) (x₀.bufByte .spie) k
  rdata : u.spi.result.rdata = x₀.result.rdata

theorem BurstStores.keptByRows (hn : 0 < n.toNat) : KeptByRows (.spiBurst reg n) x₀ (BurstStores reg n x₀) := by
  intro evs u r h hruns hlabel hrow
  exact ⟨h.stage.row hn hruns hlabel hrow, h.stage.row_bufByte h.buf hlabel hrow,
    (Engine.row_rdata hrow (.inr hlabel) .spie).trans h.rdata⟩

/-- The legal counts of SPI_BURST (30_encoding R93). -/
theorem spiBurst_wellFormed : (Instr.spiBurst reg n).wellFormed = true ↔ n ≠ 0 := by
  by_cases h : n = 0 <;> simp [Instr.wellFormed, rangeError, h]

theorem spiBurst_count (h : (Instr.spiBurst reg n).wellFormed = true) : 0 < n.toNat := by
  have hn := spiBurst_wellFormed.1 h
  bv_omega

/-- How an SPI_BURST ends, and what it leaves in BUF and RDATA. -/
theorem CommandEnded.burst_stores (h : CommandEnded (.spiBurst reg n) s t) :
    BurstEnds reg n (newEvents .spie s t) t.spi.result ∧
      (∀ k, t.spi.bufByte .spie k = overlaid (burstPayload (newEvents .spie s t)) (s.spi.bufByte .spie) k) ∧
      t.spi.result.rdata = s.spi.result.rdata := by
  obtain ⟨hended, hidle⟩ := h.induction (P := BurstStores reg n s.spi)
    ⟨by simpa [BurstAt, Instr.engine, firstRow] using Exchanged.start,
      fun k => Engine.bufByte_congr .spie k (Engine.accept_buf ..) (Engine.accept_bufEpoch ..),
      congrArg Result.rdata (Engine.accept_result ..)⟩
    (BurstStores.keptByRows (spiBurst_count h.2.1))
  have hstage := hended.stage
  simp only [Instr.engine, State.engine_spie] at hidle
  rw [hidle] at hstage
  exact ⟨hstage, hended.buf, hended.rdata⟩

end

/-! ### The obligations -/

/-- The frames of a burst lie between its CS events. -/
theorem wireFrames_selected (order : SpiByteOrder) (during : List Event) :
    wireFrames order (.csLow :: (during ++ [.csHigh])) = wireFrames order during :=
  wireFrames_concat order (.csLow :: during) .csHigh

/-- A complete burst sent the address, two dummies and `n` fillers (42_spi R185). -/
theorem burstFrames_tx {reg : BitVec 8} {got : List Byte} {n : Nat} (h : got.length = n + 3) :
    (burstFrames reg got).map WireFrame.tx =
      [burstAddress reg, Config.spiDummy, Config.spiDummy] ++ List.replicate n Config.spiDummy := by
  obtain ⟨a, b, c, rest, rfl⟩ : ∃ a b c rest, got = a :: b :: c :: rest := by
    match got, h with
    | a :: b :: c :: rest, _ => exact ⟨a, b, c, rest, rfl⟩
  obtain rfl : rest.length = n := by simpa using h
  simp only [burstFrames, List.mapIdx_cons, burstByte]
  simp [List.mapIdx_eq_zipIdx_map, Function.comp_def]

/-- The received byte of a frame of a burst. -/
theorem burstFrames_rx (reg : BitVec 8) (got : List Byte) (k : Nat) :
    (burstFrames reg got)[k]?.bind WireFrame.rx = got[k]? := by
  rw [burstFrames, List.getElem?_mapIdx]
  cases got[k]? <;> rfl

/-- Settles O44: a successful burst completed its frames, and the payload of their bytes is laid over BUF. -/
theorem burstFramesOnTheWire : Obligations.BurstFramesOnTheWire := by
  intro reg n s t order h hsuccess
  obtain ⟨⟨during, hevs, _⟩, _⟩ := h.burst_cs
  obtain ⟨⟨_, hexchanged⟩ | ⟨hfailed, _⟩, hbuf, hrdata⟩ := h.burst_stores
  · have hframes : wireFrames order during = burstFrames reg (receivedBytes (newEvents .spie s t)) := by
      rw [← wireFrames_selected, ← hevs, hexchanged.frames]
      exact List.append_nil _
    have hpayload : (burstPayload (newEvents .spie s t)).length = n.toNat := by
      rw [List.length_drop, hexchanged.received, Nat.add_sub_cancel]
    refine ⟨during, hevs, ?_, ?_, fun k hk => ?_, fun k hk => ?_, hrdata⟩
    · rw [hframes, burstFrames, List.length_mapIdx, hexchanged.received, Nat.add_comm]
    · rw [hframes]
      exact burstFrames_tx hexchanged.received
    · rw [hframes, burstFrames_rx, hbuf, ← List.getElem?_drop]
      exact overlaid_of_lt _ (by rw [hpayload]; exact hk)
    · rw [hbuf]
      exact overlaid_of_ge _ (by rw [hpayload]; exact hk)
  · exact absurd hsuccess hfailed

section
variable {n : BitVec 8} {got : Nat} {site : Option Site} {res : BitVec 8}

/-- A failed burst lacks payload. -/
theorem BurstFailed.short (h : BurstFailed n got site res) (hn : 0 < n.toNat) : got - 3 < n.toNat := by
  cases h <;> omega

/-- At the payload waits the residual is what the payload lacks (42_spi R189). -/
theorem BurstFailed.left (h : BurstFailed n got site res) (hsite : site = some .s16 ∨ site = some .s17) :
    res.toNat = n.toNat - (got - 3) := by
  cases h with
  | early h16 h17 few => simp [h16, h17] at hsite
  | payload _ short count left => rw [left, count, Nat.add_sub_cancel]

/-- Before the payload waits there is none, and the residual is 0 (42_spi R189). -/
theorem BurstFailed.nothing (h : BurstFailed n got site res) (h16 : site ≠ some .s16) (h17 : site ≠ some .s17) :
    res = 0 ∧ got ≤ 3 := by
  cases h with
  | early _ _ few => exact ⟨rfl, few.le⟩
  | payload hsite => simp_all

end

/-- Settles O45: the bytes after the three discarded ones are laid over BUF, and the failing site says how many they
are. -/
theorem burstBufferOnFailure : Obligations.BurstBufferOnFailure := by
  intro reg n s t h hfailure got
  obtain ⟨⟨hsuccess, _⟩ | ⟨_, hfailed⟩, hbuf, _⟩ := h.burst_stores
  · exact absurd hsuccess hfailure
  · have hgot : got.length = (receivedBytes (newEvents .spie s t)).length - 3 := List.length_drop
    refine ⟨?_, fun k hk => ?_, fun k hk => ?_, fun hsite => ?_, fun h16 h17 => ?_⟩
    · rw [hgot]
      exact hfailed.short (spiBurst_count h.2.1)
    · rw [hbuf]
      exact overlaid_of_lt _ hk
    · rw [hbuf]
      exact overlaid_of_ge _ hk
    · rw [hgot]
      exact hfailed.left hsite
    · obtain ⟨hres, hnone⟩ := hfailed.nothing h16 h17
      exact ⟨hres, List.drop_of_length_le hnone⟩

end Sys2Proof.Machine
end

section
/-! The SPI exchanges and SPI_BURST with every poll answered 1 (O51, O52): the rows emit a known list of events. -/

namespace Sys2Proof.Machine

/-- The events of one frame whose polls are both answered 1: TXE, the DR write, RXNE, the DR read (42_spi R191,
R193). -/
def frameEvents (tx : Byte) (v : BitVec 32) : List Event :=
  [.spiPoll .txe true, .spiTx8 tx, .spiPoll .rxne true, .spiRx8 (v.setWidth 8)]

/-- The events of a burst that discards `d₀`, `d₁` and `d₂` and stores `vs`, every poll answered 1 (42_spi R193). -/
def burstEvents (reg : BitVec 8) (d₀ d₁ d₂ : BitVec 32) (vs : List (BitVec 32)) : List Event :=
  .csLow :: frameEvents (burstAddress reg) d₀ ++
    ((d₁ :: d₂ :: vs).flatMap (frameEvents Config.spiDummy) ++ [.csHigh])

theorem receivedBytes_frames (tx : Byte) (vs : List (BitVec 32)) :
    receivedBytes (vs.flatMap (frameEvents tx)) = vs.map (·.setWidth 8) := by
  induction vs with
  | nil => rfl
  | cons v vs ih => rw [List.flatMap_cons, receivedBytes_append, ih]; rfl

/-- The bytes received are those of the discarded frames and then those of the payload. -/
theorem receivedBytes_burstEvents (reg : BitVec 8) (d₀ d₁ d₂ : BitVec 32) (vs : List (BitVec 32)) :
    receivedBytes (burstEvents reg d₀ d₁ d₂ vs) = ([d₀, d₁, d₂] ++ vs).map (·.setWidth 8) := by
  rw [burstEvents, receivedBytes_append, receivedBytes_append, receivedBytes_frames]
  show [d₀.setWidth 8] ++ (_ ++ []) = _
  rw [List.append_nil]
  rfl

/-- Four events a frame, and the two CS events. -/
theorem length_burstEvents (reg : BitVec 8) (d₀ d₁ d₂ : BitVec 32) (vs : List (BitVec 32)) :
    (burstEvents reg d₀ d₁ d₂ vs).length = 4 * vs.length + 14 := by
  simp [burstEvents, List.length_flatMap, frameEvents, Nat.mul_comm]

section
variable {e : EngineId} {y x : Engine} {l next : Label} {p : Phase} {c : Bool} {idx : BitVec 9} {b : Memory} {k : Nat}
  {v : BitVec 32} {vs : List (BitVec 32)} {r : Row} {res : Result} {st : Status} {evs : List Event}

/-- A row that receives takes the next value, which stays in tmp. -/
theorem AnsweredAt.receives {cut : BitVec 32 → BitVec 16} {ev : BitVec 16 → Event}
    (h : AnsweredAt y l p c idx b k (v :: vs) x) (hrow : (x.seenAs y l idx).row = some r)
    (hop : r.op = .receive cut ev next)
    (rest : ∀ z, AnsweredAt y next (r.phase.getD p) (r.csdrv.getD c) (if r.clearIdx then 0 else idx) b k vs z →
      z.tmp = cut v → EndsEmitting e res st evs z) :
    EndsEmitting e res st (ev (cut v) :: evs) x := by
  rw [h.seenAs_eq] at hrow
  obtain ⟨more, hmore⟩ := h.values
  have hdraw : x.env.drawValue e = (v, { x.env with values := vs ++ more }) := by
    simp [Environment.drawValue, hmore]
  obtain ⟨hat, hidx, _⟩ := Row.engine_receive (e := e) (x := x) hop
  obtain ⟨henv, htmp⟩ : (r.engine e x).env = { x.env with values := vs ++ more } ∧ (r.engine e x).tmp = cut v := by
    simp [Row.engine, Row.after_eq, Row.before_eq, hop, MicroOp.engine, Engine.received, hdraw]
  have hevent : r.event e x = some (ev (cut v)) := by
    rw [Row.event, hop, MicroOp.event, Row.before_eq, hdraw]
  refine .emit hrow (by simp [hop, MicroOp.indexed]) hevent (rest _ ?_ htmp)
  exact h.row (by rw [hop]; rfl) hat.mpc (by rw [hidx, h.idx]) ((r.engine_buf e x (by simp [hop])).trans h.buf)
    (by rw [henv]; exact h.polls) ⟨more, by rw [henv]⟩

/-- A row of SPIE that receives a byte. -/
theorem AnsweredAt.receivesByte (h : AnsweredAt y l p c idx b k (v :: vs) x) (hrow : (x.seenAs y l idx).row = some r)
    (hop : r.op = .receive cutByte (fun t => .spiRx8 (t.setWidth 8)) next)
    (rest : ∀ z, AnsweredAt y next (r.phase.getD p) (r.csdrv.getD c) (if r.clearIdx then 0 else idx) b k vs z →
      z.tmp = cutByte v → EndsEmitting e res st evs z) :
    EndsEmitting e res st (.spiRx8 (v.setWidth 8) :: evs) x := by
  rw [← cutByte_byte v]
  exact h.receives hrow hop rest

/-- The rows of SPI_SR8 (42_spi R191). -/
theorem AnsweredAt.spiSr8 (h : AnsweredAt y .x0 p c idx b 2 [v] x) :
    EndsEmitting .spie ⟨.success, none, 0, (v.setWidth 8).setWidth 16⟩ (y.status.ended c)
      (frameEvents (lowData y.latch.data) v) x :=
  h.awaits rfl rfl rfl fun _ h => h.emits rfl rfl fun _ h => h.awaits rfl rfl rfl fun _ h =>
    h.receivesByte rfl rfl fun z h htmp => by
      rw [← cutByte_byte v, ← htmp]
      exact h.finishes rfl rfl

/-- The rows of SPI_SR16 (42_spi R192). -/
theorem AnsweredAt.spiSr16 (h : AnsweredAt y .y0 p c idx b 2 [v] x) :
    EndsEmitting .spie ⟨.success, none, 0, v.setWidth 16⟩ (y.status.ended c)
      [.spiPoll .txe true, .spiTx16 y.latch.data, .spiPoll .rxne true, .spiRx16 (v.setWidth 16)] x :=
  h.awaits rfl rfl rfl fun _ h => h.emits rfl rfl fun _ h => h.awaits rfl rfl rfl fun _ h =>
    h.receives rfl rfl fun z h htmp => by
      rw [← htmp]
      exact h.finishes rfl rfl

/-- The payload loop of SPI_BURST, an induction over the values to receive, and the rows after it (42_spi R193). -/
theorem AnsweredAt.spiBurstPayload (h : AnsweredAt y .b13 p c idx b (2 * vs.length) vs x) (hvs : vs ≠ [])
    (hn : idx.toNat + vs.length = y.latch.n.toNat) :
    EndsEmitting .spie (successResult y) (y.status.ended false)
      (vs.flatMap (frameEvents Config.spiDummy) ++ [.csHigh]) x := by
  induction vs generalizing idx p b x with
  | nil => exact absurd rfl hvs
  | cons v vs ih =>
    rw [List.length_cons] at h hn
    have hidx : idx.toNat < y.latch.n.toNat := by omega
    refine h.awaits rfl rfl rfl fun _ h => h.emits rfl rfl fun _ h => h.awaits rfl rfl rfl fun _ h =>
      AnsweredAt.stores (idx := idx) h rfl rfl rfl hidx fun z b' h => ?_
    cases vs with
    | nil =>
      rw [if_neg (by rw [List.length_nil] at hn; omega)] at h
      exact h.emits rfl rfl fun _ h => h.finishes rfl rfl
    | cons w vs =>
      rw [if_pos (by rw [List.length_cons] at hn; omega)] at h
      exact ih h (List.cons_ne_nil w vs) (by rw [idx_succ_toNat hidx]; omega)

/-- The rows of SPI_BURST (42_spi R193). -/
theorem AnsweredAt.spiBurst {d₀ d₁ d₂ : BitVec 32}
    (h : AnsweredAt y .b0 p c idx b (2 * vs.length + 6) (d₀ :: d₁ :: d₂ :: vs) x) (hvs : vs ≠ [])
    (hn : vs.length = y.latch.n.toNat) :
    EndsEmitting .spie (successResult y) (y.status.ended false)
      (burstEvents y.latch.reg d₀ d₁ d₂ vs) x := by
  refine h.emits rfl rfl fun _ h => ?_
  refine h.awaits rfl rfl rfl fun _ h => h.emits rfl rfl fun _ h => h.awaits rfl rfl rfl fun _ h =>
    h.receivesByte rfl rfl fun _ h _ => ?_
  refine h.awaits rfl rfl rfl fun _ h => h.emits rfl rfl fun _ h => h.awaits rfl rfl rfl fun _ h =>
    h.receivesByte rfl rfl fun _ h _ => ?_
  refine h.awaits rfl rfl rfl fun _ h => h.emits rfl rfl fun _ h => h.awaits rfl rfl rfl fun _ h =>
    h.receivesByte rfl rfl fun _ h _ => ?_
  exact h.spiBurstPayload hvs (by simpa using hn)

end

/-- SPI_SR8 sends its operand (42_spi R191). -/
theorem lowData_operand (data : BitVec 8) : lowData (data.setWidth 16) = data := by
  simp [lowData]

/-- Settles O51: the rows of an exchange whose polls are answered 1. -/
theorem spiExchangesSucceedWhenAnswered : Obligations.SpiExchangesSucceedWhenAnswered := by
  refine ⟨fun data s v more flags hready hflags hvalues => ?_, fun data s v more flags hready hflags hvalues => ?_⟩
  · have hrows := (AnsweredAt.accepted (i := .spiSr8 data) (s := s) (k := 2) (vs := [v]) ⟨flags, hflags⟩
      ⟨more, hvalues⟩).spiSr8
    obtain ⟨t, hrun, hevs, hends⟩ := commandRun_of_endsEmitting (i := .spiSr8 data) hready rfl hrows
    have hstatus : t.spi.status = _ := hends.status
    refine ⟨t, hrun, hends.idle, by rw [hstatus]; rfl, hends.line, ?_, ?_⟩
    · rw [← setWidth_eq_lowByte]
      exact hends.result
    · rw [← setWidth_eq_lowByte, ← lowData_operand data]
      exact hevs
  · have hrows := (AnsweredAt.accepted (i := .spiSr16 data) (s := s) (k := 2) (vs := [v]) ⟨flags, hflags⟩
      ⟨more, hvalues⟩).spiSr16
    obtain ⟨t, hrun, hevs, hends⟩ := commandRun_of_endsEmitting (i := .spiSr16 data) hready rfl hrows
    have hstatus : t.spi.status = _ := hends.status
    rw [← setWidth_eq_lowHalf]
    exact ⟨t, hrun, hends.idle, by rw [hstatus]; rfl, hends.line, hends.result, hevs⟩

/-- Settles O52: the rows of a burst whose polls are answered 1, and what it lays over BUF. -/
theorem spiBurstSucceedsWhenAnswered : Obligations.SpiBurstSucceedsWhenAnswered := by
  intro reg n s discarded vals more flags hready hn hdiscarded hlen hflags hvalues
  have hwf : (Instr.spiBurst reg n).wellFormed = true := spiBurst_wellFormed.2 hn
  have hvals : vals ≠ [] := List.ne_nil_of_length_pos (by rw [hlen]; exact spiBurst_count hwf)
  obtain ⟨d₀, d₁, d₂, rfl⟩ := List.length_eq_three.1 hdiscarded
  rw [← hlen] at hflags
  have hrows := (AnsweredAt.accepted (i := .spiBurst reg n) (s := s) (vs := d₀ :: d₁ :: d₂ :: vals) ⟨flags, hflags⟩
    ⟨more, hvalues⟩).spiBurst hvals hlen
  obtain ⟨t, hrun, hevs, hends⟩ := commandRun_of_endsEmitting (i := .spiBurst reg n) hready hwf hrows
  have hended : CommandEnded (.spiBurst reg n) s t := ⟨hready, hwf, _, hrun, hends.idle.1⟩
  obtain ⟨_, hbuf, _⟩ := hended.burst_stores
  have hstatus : t.spi.status = _ := hends.status
  have hreceived : receivedBytes (newEvents .spie s t) = ([d₀, d₁, d₂] ++ vals).map (·.setWidth 8) := by
    rw [show newEvents .spie s t = _ from hevs]
    exact receivedBytes_burstEvents reg d₀ d₁ d₂ vals
  refine ⟨t, ?_, hends.idle, hends.result, by rw [hstatus]; rfl, hended.burst_cs.2.1, fun k v hv => ?_, hreceived⟩
  · rw [← hrun, ← hlen, length_burstEvents]
  · rw [hbuf, burstPayload, hreceived, overlaid, List.map_append]
    show ((vals.map (·.setWidth 8))[k]?).getD _ = _
    rw [List.getElem?_map, hv]
    rfl

end Sys2Proof.Machine
end

section
/-! What a failing command names (O37): where a failure record comes from, and how a FINISH row copies it into RESULT. -/

namespace Sys2Proof.Machine

/-- The record names a wait of the command `i`, with the outcome of that wait, and a residual only where its site has one
(60_exceptions R222). -/
def FailRecord.NamesWaitOf (i : Instr) (f : FailRecord) : Prop :=
  ∃ site, site ∈ commandSites i ∧ f.site = some site ∧ f.oc = siteOutcome site ∧
    (residualSite site = false → f.res = 0)

/-- RESULT is that of a command `i` which ended: Success, or one of its waits (60_exceptions R220-R222). -/
def Result.EndOf (i : Instr) (r : Result) : Prop :=
  (r.failsite = none ∧ r.outcome = .success ∧ r.residual = 0) ∨
    (FailRecord.mk r.outcome r.failsite r.residual).NamesWaitOf i

/-- Along a run of `i`, the failure record names one of its waits on a failure path, and RESULT one way to end at IDLE. -/
structure Engine.NamesWaits (i : Instr) (x : Engine) : Prop where
  failing : failingAt x.mpc = true → x.fail.NamesWaitOf i
  ended : x.mpc = .idle → x.result.EndOf i

/-- The wait at a label of a micro-program is one of its command's (60_exceptions R222). -/
theorem awaitSite_mem_commandSites {i : Instr} {l : Label} {site : Site} (hs : awaitSite l = some site)
    (hl : labelOpcode l = some i.opcode) : site ∈ commandSites i := by
  cases l <;> simp only [awaitSite, reduceCtorEq, Option.some.injEq] at hs <;> subst hs <;>
    cases i <;> simp [labelOpcode, Instr.opcode] at hl <;> simp [commandSites]

section
variable {e : EngineId} {i : Instr} {r : Row} {x x₀ : Engine} {s t : State}

/-- An engine comes onto a failure path by a wait that ran out, which records itself; along the path the record stays
(60_exceptions R238). -/
theorem Row.engine_fail_cases (hf : r.Fits x) (h : failingAt (r.engine e x).mpc = true) :
    (failingAt x.mpc = true ∧ (r.engine e x).fail = x.fail) ∨
      ∃ site res, awaitSite x.mpc = some site ∧ (r.engine e x).fail = ⟨siteOutcome site, some site, res⟩ ∧
        (residualSite site = false → res = 0) := by
  have hadvanced : ∀ {again done}, failingAt again = false → failingAt done = false →
      (r.engine e x).ArrivedAt (if morePayload x.latch.n (x.idx + 1#9) then again else done) → False := by
    intro again done hagain hdone hat
    rw [hat.mpc] at h
    split at h <;> simp [hagain, hdone] at h
  have hfinished : r.op.finishes = true → False := fun hfin => by
    rw [(r.engine_finished e x hfin).2.2.1] at h
    cases h
  unfold Row.Fits at hf
  split at hf
  · next hop =>
    obtain ⟨hat, _, hfail⟩ := Row.engine_emit (e := e) (x := x) hop
    rw [hat.mpc] at h
    exact .inl ⟨hf.2.2 h, hfail⟩
  · next hop =>
    obtain ⟨hat, _, hfail⟩ := Row.engine_receive (e := e) (x := x) hop
    rw [hat.mpc] at h
    exact .inl ⟨hf.2.2 h, hfail⟩
  · next hop =>
    obtain ⟨hsite, _, _, _, _, _, _, hhere, hnext, hres⟩ := hf
    obtain ⟨_, hat, _⟩ | ⟨_, _, hfail⟩ | ⟨_, hmpc, _⟩ := Row.engine_await (e := e) (x := x) hop
    · rw [hat.mpc, hnext] at h
      cases h
    · exact .inr ⟨_, _, hsite, hfail, fun hnone => by simpa [hnone] using hres⟩
    · rw [hmpc, hhere] at h
      cases h
  · next hop =>
    obtain ⟨hc, _, _, _, _, hagain, hdone⟩ := hf
    exact (hadvanced hagain hdone (Row.engine_advance hc (.inl ⟨_, hop⟩)).1).elim
  · next hop =>
    obtain ⟨hc, _, _, _, _, hagain, hdone⟩ := hf
    exact (hadvanced hagain hdone (Row.engine_advance hc (.inr hop)).1).elim
  · next hop => exact (hfinished (by rw [hop]; rfl)).elim
  · next hop => exact (hfinished (by rw [hop]; rfl)).elim

/-- A FINISH row writes Success into RESULT, or the failure record of the path it ends (40_sequencer R116). -/
theorem Row.engine_result_cases (hf : r.Fits x) (h : r.op.finishes = true) :
    ((r.engine e x).result.failsite = none ∧ (r.engine e x).result.outcome = .success ∧
        (r.engine e x).result.residual = 0) ∨
      (failingAt x.mpc = true ∧ (r.engine e x).result.outcome = x.fail.oc ∧
        (r.engine e x).result.failsite = x.fail.site ∧ (r.engine e x).result.residual = x.fail.res) := by
  unfold Row.Fits at hf
  split at hf
  case h_6 res init hop =>
    rw [Row.engine_finish_result hop]
    obtain ⟨_, _, _, ⟨hoc, hsite, hres⟩ | ⟨rfl, hhere⟩⟩ := hf
    · exact .inl ⟨hsite, hoc, hres⟩
    · exact .inr ⟨hhere, rfl, rfl, rfl⟩
  case h_7 hop =>
    rw [Row.engine_finishDrawn_result hop]
    exact .inr ⟨hf.2.2.2, rfl, rfl, rfl⟩
  all_goals next hop => simp [hop, MicroOp.finishes] at h

/-- Each row of a command keeps what its failure record and its RESULT name. -/
theorem Engine.NamesWaits.row (h : x.NamesWaits i) (hlabel : labelOpcode x.mpc = some i.opcode)
    (hrow : x.row = some r) : (r.engine e x).NamesWaits i := by
  have hf := Engine.row_fits hrow
  refine ⟨fun hfailing => ?_, fun hidle => ?_⟩
  · obtain ⟨hhere, hfail⟩ | ⟨site, res, hsite, hfail, hres⟩ := Row.engine_fail_cases hf hfailing <;> rw [hfail]
    · exact h.failing hhere
    · exact ⟨site, awaitSite_mem_commandSites hsite hlabel, rfl, rfl, hres⟩
  · cases hfin : r.op.finishes
    · have hsame := (Row.leadsTo_engine (e := e) hf hfin).1
      rw [hidle, hlabel] at hsame
      cases hsame
    · obtain hsuccess | ⟨hhere, hoc, hsite, hres⟩ := Row.engine_result_cases (e := e) hf hfin
      · exact .inl hsuccess
      · refine .inr ?_
        rw [hoc, hsite, hres]
        exact h.failing hhere

/-- At the first label of a command nothing has failed yet and nothing has ended. -/
theorem Engine.NamesWaits.accepted (i : Instr) (x : Engine) : (x.accept i (firstRow i).1).NamesWaits i := by
  obtain ⟨hlabel, _, _, hfailing⟩ := firstRow_label i
  refine ⟨fun h => ?_, fun h => ?_⟩ <;> rw [Engine.accept_mpc] at h
  · rw [hfailing] at h
    cases h
  · rw [h] at hlabel
    cases hlabel

theorem Engine.NamesWaits.keptByRows : KeptByRows i x₀ fun _ u => (u.engine i.engine).NamesWaits i := by
  intro _ u r h _ hlabel hrow
  rw [State.engine_setEngine]
  exact h.row hlabel hrow

end

/-- Settles O37: along the rows of a command its failure record names one of its own waits, and FINISH copies it. -/
theorem failedCommandNamesItsWait : Obligations.FailedCommandNamesItsWait := by
  intro i s t h
  obtain ⟨hnames, hidle⟩ := h.induction (P := fun _ u => (u.engine i.engine).NamesWaits i)
    (by rw [State.engine_setEngine]; exact .accepted i _) Engine.NamesWaits.keptByRows
  exact hnames.ended hidle

end Sys2Proof.Machine
end

section
/-! BUF accesses while BUSY = 1 (O24). -/

namespace Sys2Proof.Machine

section
variable {e : EngineId} {off : BitVec 9} {size : AccessSize} {s : State}

theorem memRead_buf_busy (h : (s.engine e).faults.cmdWhileBusy = false) (hb : (s.engine e).status.busy = true)
    (hr : regionOf off size = .buf) :
    memRead e off size s = returnDraw e size (s.onEngine e (Engine.raise .bufWhileBusy)) := by
  simp [memRead, h, hb, hr]

theorem memWrite_buf_busy (h : (s.engine e).faults.cmdWhileBusy = false) (hb : (s.engine e).status.busy = true)
    (hr : regionOf off size = .buf) (v : BitVec 32) :
    memWrite e off size v s = .next (writeBufBusy e (off.toNat - 0x100) size.bytes v s) := by
  simp [memWrite, h, hb, hr]

end

/-- A read while BUSY = 1 raises the fault, takes a draw and answers it cut to the access (60_exceptions R232). -/
theorem returnDraw_raise_bufWhileBusy (e : EngineId) (size : AccessSize) (s : State) :
    returnDraw e size (s.onEngine e (Engine.raise .bufWhileBusy)) =
      { s.setEngine e
          { s.engine e with
            faults := { (s.engine e).faults with bufWhileBusy := true }
            env := ((s.engine e).env.drawValue e).2 } with
        hostRead := size.cut ((s.engine e).env.drawValue e).1 } := by
  cases e <;> rfl

/-- A host store neither reads nor writes the fault set and the environment. -/
theorem storeBytes_with_faults_env (k : Nat) (v : BitVec 32) (count : Nat) (x : Engine) (f : FaultSet)
    (env : Environment) :
    storeBytes k v count { x with faults := f, env := env } =
      { storeBytes k v count x with faults := f, env := env } := by
  induction count with
  | zero => rfl
  | succ n ih => rw [storeBytes, ih, storeBytes]; rfl

/-- A BUF write while BUSY = 1 raises the fault and takes a draw, on the engine as it was or as the whole write leaves it
(60_exceptions R232, log 12). -/
theorem writeBufBusy_cases (e : EngineId) (k count : Nat) (v : BitVec 32) (s : State) :
    ∃ contested y, (y = s.engine e ∨ y = storeBytes k v count (s.engine e)) ∧
      writeBufBusy e k count v s =
        s.setEngine e
          { y with
            faults := (s.engine e).faults.record .bufWhileBusy
            env := ((s.engine e).env.drawFlag e).2
            contested := contested } := by
  cases hlands : ((s.engine e).env.drawFlag e).1
  · refine ⟨(s.engine e).contested ++ offeredCells k v count, _, .inl rfl, ?_⟩
    simp only [writeBufBusy, hlands, State.onEngine, Bool.false_eq_true, if_false]
    rfl
  · refine ⟨(s.engine e).contested ++
      heldCells e { (s.engine e).raise .bufWhileBusy with env := ((s.engine e).env.drawFlag e).2 } k count,
      _, .inr rfl, ?_⟩
    simp only [writeBufBusy, hlands, State.onEngine, if_true, Engine.raise, storeBytes_with_faults_env]

/-- Settles O24: the access is to BUF, where a busy engine draws. -/
theorem bufAccessWhileBusyFaults : Obligations.BufAccessWhileBusyFaults := by
  intro e off size v s hf hbusy hoff haligned
  have hr := regionOf_buf hoff haligned
  refine ⟨⟨_, ?_, fun j hj => cut_byte size _ hj⟩, _, memWrite_buf_busy hf hbusy hr v, ?_⟩
  · rw [memRead_buf_busy hf hbusy hr, returnDraw_raise_bufWhileBusy]
  · obtain ⟨contested, y, rfl | rfl, hwrite⟩ := writeBufBusy_cases e (off.toNat - 0x100) size.bytes v s <;>
      rw [hwrite, State.engine_setEngine]
    · exact ⟨rfl, .inl fun _ => rfl⟩
    · refine ⟨?_, .inr ⟨fun j hj => ?_, fun j hj => ?_⟩⟩
      · rw [storeBytes_eq]
        rfl
      · exact storeBytes_bufByte_in e _ v (s.engine e) hj
      · exact storeBytes_bufByte_out e v (s.engine e) hj

end Sys2Proof.Machine
end

section
/-! The CS line (O25): the host's drive of it, and what one step of a command does to it. -/

namespace Sys2Proof.Machine

/-- Outside a burst the host sets the level (42_spi R174). -/
theorem driveCs_outside_burst {s : State} (hf : s.spi.faults.cmdWhileBusy = false) (hcs : s.spi.status.csdrv = false)
    (high : Bool) : driveCs high s = { s with cs := if high then .high else .low } := by
  simp [driveCs, hf, hcs]

/-- Inside a burst the host's drive is a contention (60_exceptions R233). -/
theorem driveCs_inside_burst {s : State} (hf : s.spi.faults.cmdWhileBusy = false) (hcs : s.spi.status.csdrv = true)
    (high : Bool) :
    driveCs high s =
      { s with cs := .unknown, spi := { s.spi with faults := { s.spi.faults with csContention := true } } } := by
  rw [driveCs, if_neg (by simp [hf]), if_pos hcs]
  rfl

/-- One step of a command adds at most one event to SPIE's trace, and the CS line is as that event leaves it
(10_state R56). -/
theorem exec_newEvents_spie {i : Instr} {s t : State} (h : exec i s = .next t) :
    ∃ o : Option Event, newEvents .spie s t = o.toList ∧ t.cs = s.cs.after o := by
  cases he : i.engine with
  | i2ce =>
    have hacts := exec_actsOn h
    rw [he] at hacts
    exact ⟨none, by simp [newEvents, hacts.others .spie (by simp)], hacts.cs (by simp)⟩
  | spie =>
    obtain ⟨o, y, hmove, rfl⟩ := exec_next_iff.1 h
    rw [he] at hmove
    refine ⟨o, newEvents_of_trace ?_, ?_⟩
    · rw [he, State.engine_setEngine, hmove.trace]
    · rw [State.setEngine_cs, State.observed_cs]

/-- Only a CS event changes the CS level. -/
theorem CsLevel.after_of_csEvents_nil (c : CsLevel) {o : Option Event} (h : csEvents o.toList = []) :
    c.after o = c := by
  cases o with
  | none => rfl
  | some ev => cases ev <;> first | rfl | simp [csEvents] at h

/-- Settles O25: the host's drive by CSDRV, and a command's step by the event it emits. -/
theorem csContentionMakesLevelUnknown : Obligations.CsContentionMakesLevelUnknown := by
  refine ⟨fun s high hf => ⟨fun hcs => ?_, fun hcs => ?_⟩, fun i s t h hquiet => ?_, fun i s t h => ?_⟩
  · rw [hostAction, driveCs_inside_burst hf hcs]
  · rw [hostAction, driveCs_outside_burst hf hcs]
  · obtain ⟨o, hevs, hcs⟩ := exec_newEvents_spie h
    rw [hcs, CsLevel.after_of_csEvents_nil _ (hevs ▸ hquiet)]
  · obtain ⟨o, hevs, hcs⟩ := exec_newEvents_spie h
    rw [hevs, hcs]
    refine ⟨fun hev => ?_, fun hev => ?_⟩ <;> rw [Option.toList_eq_singleton_iff] at hev <;> rw [hev] <;> rfl

end Sys2Proof.Machine
end

section
/-! How many kinds of host fault one turn records (O27): none in a sequencer's turn, at most one in a host access. -/

namespace Sys2Proof.Machine

/-- From `x` to `y` at most one kind of host fault was recorded, and none removed. -/
def Engine.RecordsAtMostOne (x y : Engine) : Prop := y.faults = x.faults ∨ ∃ k, y.faults = x.faults.record k

section
variable {e : EngineId} {s t : State}

/-- A row of a command records no fault; from IDLE a command's step records at most NotInitialized. -/
theorem ExecMove.recordsAtMostOne {i : Instr} {x y : Engine} {o : Option Event} (h : ExecMove i x o y) :
    x.RecordsAtMostOne y := by
  cases h with
  | accepted idle wf =>
    rw [Engine.RecordsAtMostOne, Engine.accept_faults]
    split
    · exact .inr ⟨_, rfl⟩
    · exact .inl rfl
  | rejected idle wf => exact .inl rfl
  | ran r label row inBuf => exact .inl (r.engine_sameCommand i.engine x).faults

/-- Past IDLE a command's step records no fault (40_sequencer R111). -/
theorem ExecMove.faults_of_running {i : Instr} {x y : Engine} {o : Option Event} (h : ExecMove i x o y)
    (hx : x.mpc ≠ .idle) : y.faults = x.faults := by
  cases h with
  | accepted idle wf => exact absurd idle hx
  | rejected idle wf => exact absurd idle hx
  | ran r label row inBuf => exact (r.engine_sameCommand i.engine x).faults

theorem unspecify_faults (e e' : EngineId) (s : State) : ((s.unspecify e).engine e').faults = (s.engine e').faults := by
  obtain rfl | he := eq_or_ne e' e
  · exact (unspecify_frame e' s).1
  · rw [(s.actsOn_unspecify e).others e' he]

/-- A sequencer's own turn records no host fault. -/
theorem sequencerTurn_faults (hinv : EngineInv e (s.engine e)) (h : sequencerTurn e s = .next t) (e' : EngineId) :
    (t.engine e').faults = (s.engine e').faults := by
  obtain ⟨_, hturn⟩ | ⟨_, _, hturn⟩ | ⟨_, hbusy, i, hrun, hturn⟩ | ⟨_, _, _, hturn⟩ := sequencerTurn_cases e s <;>
    rw [hturn] at h
  · cases h
    exact unspecify_faults e e' s
  · cases h
    rfl
  · obtain rfl := runningCommand_engine hrun
    obtain rfl | he := eq_or_ne e' i.engine
    · obtain ⟨o, y, hmove, rfl⟩ := exec_next_iff.1 h
      rw [State.engine_setEngine]
      exact hmove.faults_of_running (hinv.mpc_ne_idle hbusy)
    · rw [(exec_actsOn h).others e' he]
  · cases h

theorem memRead_recordsAtMostOne (e : EngineId) (off : BitVec 9) (size : AccessSize) (s : State) :
    (s.engine e).RecordsAtMostOne ((memRead e off size s).engine e) := by
  have hraised : ∀ k, (s.engine e).RecordsAtMostOne
      ((returnDraw e size (s.onEngine e (Engine.raise k))).engine e) := by
    intro k
    rw [engine_returnDraw, State.engine_onEngine]
    exact .inr ⟨k, rfl⟩
  have hreturned : ∀ v, (s.engine e).RecordsAtMostOne ((s.returned v).engine e) := by
    intro v
    rw [State.engine_returned]
    exact .inl rfl
  unfold memRead
  dsimp only
  split
  · rw [engine_returnDraw]
    exact .inl (unspecify_faults e e s)
  · split
    · exact hraised _
    · exact hreturned _
    · exact hreturned _
    · exact hreturned _
    · exact hreturned _
    · split
      · exact hraised _
      · exact hreturned _

theorem writeCmd_recordsAtMostOne {w : Word} (h : writeCmd e w s = .next t) :
    (s.engine e).RecordsAtMostOne (t.engine e) := by
  obtain ⟨_, hw⟩ | ⟨_, _, _, hw⟩ | ⟨_, i, hdec, hw⟩ := writeCmd_cases e w s <;> rw [hw] at h
  · cases h
    exact .inr ⟨_, commandWhileBusy_faults e s⟩
  · cases h
    rw [rejectCommand, State.engine_onEngine]
    exact .inl rfl
  · obtain ⟨_, rfl, _⟩ := decode_ok hdec
    obtain ⟨o, y, hmove, rfl⟩ := exec_next_iff.1 h
    rw [State.engine_setEngine]
    exact hmove.recordsAtMostOne

theorem memWrite_recordsAtMostOne {off : BitVec 9} {size : AccessSize} {v : BitVec 32}
    (h : memWrite e off size v s = .next t) : (s.engine e).RecordsAtMostOne (t.engine e) := by
  unfold memWrite at h
  dsimp only at h
  split at h
  · cases h
    exact .inl (unspecify_faults e e s)
  · split at h
    case h_1 =>
      cases h
      rw [State.engine_onEngine]
      exact .inr ⟨.badAccess, rfl⟩
    case h_2 => exact writeCmd_recordsAtMostOne h
    case h_6 =>
      split at h <;> cases h
      · obtain ⟨_, _, _, hwrite⟩ := writeBufBusy_cases e (off.toNat - 0x100) size.bytes v s
        rw [hwrite, State.engine_setEngine]
        exact .inr ⟨.bufWhileBusy, rfl⟩
      · rw [State.engine_onEngine]
        exact .inl (storeBytes_faults ..)
    all_goals
      cases h
      exact .inl rfl

theorem driveCs_recordsAtMostOne (high : Bool) (s : State) : s.spi.RecordsAtMostOne (driveCs high s).spi := by
  unfold driveCs
  split
  · exact .inl (unspecify_faults .spie .spie s)
  · split
    · exact .inr ⟨.csContention, rfl⟩
    · exact .inl rfl

/-- An access that acts on engine `e` records at most one kind if it does so against `e`. -/
theorem ActsOn.recordsAtMostOne (h : ActsOn e s t) (hacc : (s.engine e).RecordsAtMostOne (t.engine e)) (e' : EngineId) :
    (s.engine e').RecordsAtMostOne (t.engine e') := by
  obtain rfl | he := eq_or_ne e' e
  · exact hacc
  · exact .inl (by rw [h.others e' he])

/-- One host access records at most one kind (60_exceptions R236). -/
theorem hostAction_recordsAtMostOne {op : HostOp} (h : hostAction op s = .next t) (e : EngineId) :
    (s.engine e).RecordsAtMostOne (t.engine e) := by
  cases op with
  | read e' off size =>
    cases h
    exact (memRead_actsOn e' off size s).recordsAtMostOne (memRead_recordsAtMostOne e' off size s) e
  | write e' off size v => exact (memWrite_move h).1.recordsAtMostOne (memWrite_recordsAtMostOne h) e
  | wait e' =>
    cases h
    rw [(waitOnce_engine e' e s).1]
    exact (memRead_actsOn e' _ _ s).recordsAtMostOne (memRead_recordsAtMostOne e' _ _ s) e
  | driveCs high =>
    cases h
    exact (driveCs_move high s none).1.recordsAtMostOne (driveCs_recordsAtMostOne high s) e
  | reset =>
    cases h
    cases e <;> exact .inl rfl

end

/-- Settles O27: a turn past IDLE is a row, and a host access raises one fault or none. -/
theorem oneAccessRecordsAtMostOneFault : Obligations.OneAccessRecordsAtMostOneFault :=
  ⟨fun _ _ _ e' hinv h => sequencerTurn_faults hinv h e', fun _ _ _ e h => hostAction_recordsAtMostOne h e⟩

end Sys2Proof.Machine
end
